-- ==== Sys2Proof/Word.lean ====
section
/-! DEFINITION. The word types of rexta-24: bytes, 24-bit addresses, opcode words and width-w operand
values (00_scope R10, R12). -/

namespace Sys2Proof

/-- A byte of memory or one register cell: `CELL` = 8 bits (00_scope R10). -/
abbrev Byte := BitVec 8

/-- A 24-bit unsigned value with wrap-around: addresses, `pc` and `sp` (00_scope R15, 40_datapath R404). -/
abbrev U24 := BitVec 24

/-- A 16-bit opcode word (`OPW` = 2 bytes, 30_encoding R300, R302). -/
abbrev Code := BitVec 16

/-- A `w`-byte operand value, `Bw = 8*w` bits (00_scope R12). -/
abbrev Val (w : Nat) := BitVec (8 * w)

/-- A register field of an instruction: one nibble, a plain index (30_encoding R305 to R309, R311). -/
abbrev Reg := BitVec 4

end Sys2Proof
end

