-- ==== Sys2Proof/Config.lean ====
section
/-! DEFINITION. The implementation parameters of 00_scope R10. The spec has a model take them as
arguments; the model carries them in `State.cfg`, which no step writes (log entry 2). -/

namespace Sys2Proof

/-- `MEM_SIZE`: bytes of backed memory, 1 <= MEM_SIZE <= 2^24 (00_scope R10, 20_memory R201). -/
abbrev MemSize := { n : Nat // 1 ≤ n ∧ n ≤ 2 ^ 24 }

/-- Memory as plain data: (address, byte) pairs in one canonical form (`Machine.Memory.wf`); an unlisted
backed address reads as 0x00, the default `MEM_INIT` (00_scope R10). -/
abbrev Memory := List Host.Cell

/-- The memory's canonical form: addresses strictly rising, and no entry equal to the 0x00 that an unlisted
address reads as (20_memory R200, log entry 7). -/
abbrev Memory.wf (m : Memory) : Prop :=
  m.Pairwise (fun a b => a.1 < b.1) ∧ ∀ c ∈ m, c.2 ≠ 0#8

/-- The parameters of 00_scope R10. `CYCLES` (93) is left out: nothing observable depends on it (R907). -/
structure Config where
  /-- `MEM_SIZE` (R201). -/
  memSize : MemSize
  /-- `SP_RESET` (R107). -/
  spReset : U24
  /-- `ICOUNT_BITS` (R113). -/
  icountBits : Nat
  /-- `MEM_INIT`: memory contents at launch outside the loaded program (R900). -/
  memInit : Memory
  /-- `ASM_LENIENT` (R331, R332). -/
  asmLenient : Bool
deriving DecidableEq, Repr

/-- The defaults of 00_scope R10. -/
def Config.standard : Config where
  memSize := ⟨0x10000, by decide⟩
  spReset := 0x00FFFF#24
  icountBits := 64
  memInit := []
  asmLenient := false

end Sys2Proof
end

