-- ==== Sys2Proof/Syntax.lean ====
section
/-! DEFINITION. The instructions of rexta-24: one constructor per row of spec/opcode_table.json, that is per
operation of 30_encoding R312 (00_scope R14). -/

namespace Sys2Proof

/-- A decoded instruction, the operation descriptor of 30_encoding R315 without its derived length. A register
field is the raw nibble of the encoding; `Instr.wf` is the bound of R308. For `STORE.w` the register `d` is the
first operand, the one stored (44_load_store R604). -/
inductive Instr where
  /-- `ADD.1`: Add the source view to the destination view (R451). -/
  | add1 (d s : Reg)
  /-- `ADD.2`: Add the source view to the destination view (R452). -/
  | add2 (d s : Reg)
  /-- `ADD.3`: Add the source view to the destination view (R453). -/
  | add3 (d s : Reg)
  /-- `SUB.1`: Subtract the source view from the destination view (R455). -/
  | sub1 (d s : Reg)
  /-- `SUB.2`: Subtract the source view from the destination view (R456). -/
  | sub2 (d s : Reg)
  /-- `SUB.3`: Subtract the source view from the destination view (R457). -/
  | sub3 (d s : Reg)
  /-- `INC.1`: Add 1 to the register view (R459). -/
  | inc1 (r : Reg)
  /-- `INC.2`: Add 1 to the register view (R460). -/
  | inc2 (r : Reg)
  /-- `INC.3`: Add 1 to the register view (R461). -/
  | inc3 (r : Reg)
  /-- `DEC.1`: Subtract 1 from the register view (R463). -/
  | dec1 (r : Reg)
  /-- `DEC.2`: Subtract 1 from the register view (R464). -/
  | dec2 (r : Reg)
  /-- `DEC.3`: Subtract 1 from the register view (R465). -/
  | dec3 (r : Reg)
  /-- `ADDI.1`: Add an immediate to the register view (R467). -/
  | addi1 (d : Reg) (imm : BitVec 8)
  /-- `ADDI.2`: Add an immediate to the register view (R468). -/
  | addi2 (d : Reg) (imm : BitVec 16)
  /-- `ADDI.3`: Add an immediate to the register view (R469). -/
  | addi3 (d : Reg) (imm : BitVec 24)
  /-- `AND.1`: Bitwise AND into the destination view (R501). -/
  | and1 (d s : Reg)
  /-- `AND.2`: Bitwise AND into the destination view (R502). -/
  | and2 (d s : Reg)
  /-- `AND.3`: Bitwise AND into the destination view (R503). -/
  | and3 (d s : Reg)
  /-- `OR.1`: Bitwise OR into the destination view (R505). -/
  | or1 (d s : Reg)
  /-- `OR.2`: Bitwise OR into the destination view (R506). -/
  | or2 (d s : Reg)
  /-- `OR.3`: Bitwise OR into the destination view (R507). -/
  | or3 (d s : Reg)
  /-- `XOR.1`: Bitwise exclusive OR into the destination view (R509). -/
  | xor1 (d s : Reg)
  /-- `XOR.2`: Bitwise exclusive OR into the destination view (R510). -/
  | xor2 (d s : Reg)
  /-- `XOR.3`: Bitwise exclusive OR into the destination view (R511). -/
  | xor3 (d s : Reg)
  /-- `NOT.1`: Complement the register view (R513). -/
  | not1 (r : Reg)
  /-- `NOT.2`: Complement the register view (R514). -/
  | not2 (r : Reg)
  /-- `NOT.3`: Complement the register view (R515). -/
  | not3 (r : Reg)
  /-- `CMP.1`: Compare two views by subtraction, writing only the flags (R471). -/
  | cmp1 (d s : Reg)
  /-- `CMP.2`: Compare two views by subtraction, writing only the flags (R472). -/
  | cmp2 (d s : Reg)
  /-- `CMP.3`: Compare two views by subtraction, writing only the flags (R473). -/
  | cmp3 (d s : Reg)
  /-- `TST.1`: Test two views by AND, writing only the flags (R517). -/
  | tst1 (d s : Reg)
  /-- `TST.2`: Test two views by AND, writing only the flags (R518). -/
  | tst2 (d s : Reg)
  /-- `TST.3`: Test two views by AND, writing only the flags (R519). -/
  | tst3 (d s : Reg)
  /-- `MOV.1`: Copy the source view into the destination view (R555). -/
  | mov1 (d s : Reg)
  /-- `MOV.2`: Copy the source view into the destination view (R556). -/
  | mov2 (d s : Reg)
  /-- `MOV.3`: Copy the source view into the destination view (R557). -/
  | mov3 (d s : Reg)
  /-- `LOADI.1`: Load an immediate into the register view (R551). -/
  | loadi1 (d : Reg) (imm : BitVec 8)
  /-- `LOADI.2`: Load an immediate into the register view (R552). -/
  | loadi2 (d : Reg) (imm : BitVec 16)
  /-- `LOADI.3`: Load an immediate into the register view (R553). -/
  | loadi3 (d : Reg) (imm : BitVec 24)
  /-- `LOAD.1`: Load from an absolute address (R601). -/
  | load1 (d : Reg) (addr : U24)
  /-- `LOAD.2`: Load from an absolute address (R602). -/
  | load2 (d : Reg) (addr : U24)
  /-- `LOAD.3`: Load from an absolute address (R603). -/
  | load3 (d : Reg) (addr : U24)
  /-- `STORE.1`: Store to an absolute address (R605). -/
  | store1 (d : Reg) (addr : U24)
  /-- `STORE.2`: Store to an absolute address (R606). -/
  | store2 (d : Reg) (addr : U24)
  /-- `STORE.3`: Store to an absolute address (R607). -/
  | store3 (d : Reg) (addr : U24)
  /-- `PUSH.1`: Push the register view (R705). -/
  | push1 (r : Reg)
  /-- `PUSH.2`: Push the register view (R706). -/
  | push2 (r : Reg)
  /-- `PUSH.3`: Push the register view (R707). -/
  | push3 (r : Reg)
  /-- `POP.1`: Pop into the register view (R709). -/
  | pop1 (r : Reg)
  /-- `POP.2`: Pop into the register view (R710). -/
  | pop2 (r : Reg)
  /-- `POP.3`: Pop into the register view (R711). -/
  | pop3 (r : Reg)
  /-- `JMP`: Jump always (R651). -/
  | jmp (addr : U24)
  /-- `JZ`: Jump if ZERO is set (R652). -/
  | jz (addr : U24)
  /-- `JNZ`: Jump if ZERO is clear (R653). -/
  | jnz (addr : U24)
  /-- `JC`: Jump if CARRY is set (R654). -/
  | jc (addr : U24)
  /-- `JNC`: Jump if CARRY is clear (R655). -/
  | jnc (addr : U24)
  /-- `JSR`: Call a subroutine (R700). -/
  | jsr (addr : U24)
  /-- `RTS`: Return from a subroutine (R701). -/
  | rts
  /-- `HLT`: Halt (R750). -/
  | hlt
deriving DecidableEq, Repr

end Sys2Proof
end

