-- ==== Sys2Proof/Machine/State.lean ====
section
/-! DEFINITION. The architectural state of rexta-24 (10_state R100 to R116), as plain data, the outcomes a step
may stop with, and the machine right after reset. -/

namespace Sys2Proof.Machine

/-- The engine state (10_state R111). -/
inductive EngineState where
  | idle
  | running
  | halted
  | faulted
deriving DecidableEq, Repr

/-- The three kinds of fault (60_exceptions R800, R803). -/
inductive FaultKind where
  | invalidOpCode
  | invalidInstruction
  | memoryFault
deriving DecidableEq, Repr

/-- The reason field of the fault record (60_exceptions R802). -/
inductive FaultReason where
  /-- The opcode word is not in the opcode map. -/
  | unknown
  /-- An operand byte lies outside backed memory. -/
  | truncated
  /-- A register byte has non-zero bits that the format does not use. -/
  | packing
  /-- A register index, with the operation's width, passes cell 8. -/
  | register
  /-- A byte of the opcode word lies outside backed memory. -/
  | fetch
  /-- A byte of a LOAD.w or STORE.w access lies outside backed memory. -/
  | data
  /-- A byte of a PUSH.w, POP.w, JSR or RTS stack access lies outside backed memory. -/
  | stack
deriving DecidableEq, Repr

/-- The fault record (10_state R112). -/
structure FaultRecord where
  kind : FaultKind
  /-- The address of the first byte of the faulting instruction. -/
  pc : U24
  /-- The 16-bit opcode word, or none when the word could not be fetched. -/
  code : Option Code
  /-- The first byte address found out of range, or none. -/
  addr : Option U24
  reason : FaultReason
deriving DecidableEq, Repr

/-- The state of one machine: 10_state R101 to R113 and the memory of 20_memory R200, with the parameters of
00_scope R10 it was built with. -/
structure State where
  /-- The parameters of R10, the model's own field: no step writes it (log entry 2). -/
  cfg : Config
  /-- The register cells `x[0]` to `x[8]` (R101). -/
  regs : Vector Byte 9
  /-- The program counter (R105). -/
  pc : U24
  /-- The stack pointer (R107). -/
  sp : U24
  /-- The ZERO flag (R108). -/
  zero : Bool
  /-- The CARRY flag (R108). -/
  carry : Bool
  /-- The engine state (R111). -/
  engine : EngineState
  /-- The fault record, `none` when empty (R112). -/
  fault : Option FaultRecord
  /-- The instruction counter, a number below 2^ICOUNT_BITS (R113, log entry 8). -/
  icount : Nat
  /-- The one flat memory (20_memory R200). -/
  mem : Memory
deriving DecidableEq, Repr

/-- Creating an engine with given parameters: the reset values of 10_state R116, and memory set to `MEM_INIT`
(70_reset R900). -/
def State.create (c : Config) : State where
  cfg := c
  regs := Vector.replicate 9 0#8
  pc := 0#24
  sp := c.spReset
  zero := false
  carry := false
  engine := .idle
  fault := none
  icount := 0
  mem := c.memInit

/-- The machine right after reset, with the default parameters of 00_scope R10 (10_state R116). -/
def State.reset : State := State.create Config.standard

/-- Reasons a step could stop outside the machine's own state. There is none: every fault of this hardware is an
entry the spec describes (60_exceptions R808), so a faulting step answers a NEXT state, with the engine Faulted and
the fault record written. Nobody raises this type; that is safe (log entry 1). -/
inductive Fault where
deriving DecidableEq, Repr

/-- Reasons the model has no meaning for an instruction. -/
inductive Refusal where
  /-- Raised by `exec`'s arm for an instruction whose meaning is not written yet; no arm raises it now. Safe. -/
  | notModelled (mnemonic : String)
deriving DecidableEq, Repr

/-- What a meaning and a step answer. -/
abbrev Result := Host.Outcome State Fault Refusal

end Sys2Proof.Machine
end

