-- ==== Sys2Proof/Machine/Flags.lean ====
section
/-! DEFINITION. Width-w arithmetic with its flag outputs (40_datapath R410 to R414) and the flags of the state
(10_state R108, R109). Each function answers the result and CARRY; ZERO is computed from the result. -/

namespace Sys2Proof.Machine

/-- `addw`: the exact sum modulo `2^(8w)`, CARRY when the sum reaches `2^(8w)` (R410). -/
def addw {w : Nat} (a b : Val w) : Val w × Bool :=
  (BitVec.ofNat (8 * w) (a.toNat + b.toNat), decide (2 ^ (8 * w) ≤ a.toNat + b.toNat))

/-- `subw`: the difference modulo `2^(8w)`, CARRY a borrow, set when `a < b` (R411). -/
def subw {w : Nat} (a b : Val w) : Val w × Bool :=
  (BitVec.ofNat (8 * w) (a.toNat + 2 ^ (8 * w) - b.toNat), decide (a.toNat < b.toNat))

/-- `incw(a) = addw(a, 1)` (R412). -/
def incw {w : Nat} (a : Val w) : Val w × Bool := addw a 1#(8 * w)

/-- `decw`: the predecessor modulo `2^(8w)`, CARRY set when the operand was 0 (R412). -/
def decw {w : Nat} (a : Val w) : Val w × Bool :=
  (BitVec.ofNat (8 * w) (a.toNat + (2 ^ (8 * w) - 1)), decide (a.toNat = 0))

/-- `andw`, CARRY always cleared (R413). -/
def andw {w : Nat} (a b : Val w) : Val w × Bool := (a &&& b, false)

/-- `orw`, CARRY always cleared (R413). -/
def orw {w : Nat} (a b : Val w) : Val w × Bool := (a ||| b, false)

/-- `xorw`, CARRY always cleared (R413). -/
def xorw {w : Nat} (a b : Val w) : Val w × Bool := (a ^^^ b, false)

/-- `notw(a) = (Mw - 1) ^ a`, CARRY always cleared (R413). -/
def notw {w : Nat} (a : Val w) : Val w × Bool := (BitVec.ofNat (8 * w) (2 ^ (8 * w) - 1) ^^^ a, false)

/-- The second operand moved as it stands, CARRY cleared: MOV and LOADI (43_data_move R550, R554). -/
def movew {w : Nat} (_a b : Val w) : Val w × Bool := (b, false)

/-- ZERO: the `w` bytes of the value are all zero (R414). -/
def isZero {w : Nat} (v : Val w) : Bool := v == 0#(8 * w)

/-- Write both flags: ZERO from the value, CARRY as given (R414, 10_state R110). -/
def State.setFlags {w : Nat} (s : State) (v : Val w) (c : Bool) : State :=
  { s with zero := isZero v, carry := c }

/-- FLAGS, the two flags as one byte for the host: bit 0 = Z, bit 1 = C, bits 7:2 read as 0 (10_state R109). -/
def State.flagsByte (s : State) : Byte :=
  BitVec.ofNat 8 (s.zero.toNat + 2 * s.carry.toNat)

end Sys2Proof.Machine
end

