-- ==== Sys2Proof/Machine/Bytes.lean ====
section
/-! DEFINITION. Byte order and bit fields: every multi-byte quantity is little-endian (20_memory R207), and a
register byte holds its fields in nibbles (30_encoding R305, R306). -/

namespace Sys2Proof

/-- The unsigned value of bytes whose first is the least significant (20_memory R205, R207). -/
def leNat : List Byte → Nat
  | [] => 0
  | b :: bs => b.toNat + 256 * leNat bs

/-- The `n` low bytes of `v`, least significant first (20_memory R206, R207). -/
def leBytes : Nat → Nat → List Byte
  | 0, _ => []
  | n + 1, v => BitVec.ofNat 8 v :: leBytes n (v / 256)

/-- The `w`-byte value of a byte list, zero-extended or cut to `w` bytes (20_memory R205, 30_encoding R311). -/
def ofBytes (w : Nat) (bs : List Byte) : Val w := BitVec.ofNat (8 * w) (leNat bs)

/-- The bytes of a `w`-byte value: byte k is `v[8*k+7 : 8*k]` (20_memory R206, 10_state R103). -/
def toBytes (w : Nat) (v : Val w) : List Byte := leBytes w v.toNat

/-- The address or target read from three bytes (30_encoding R309, R310). -/
def addrOfBytes (bs : List Byte) : U24 := ofBytes 3 bs

/-- The three bytes of an address, lowest first (30_encoding R309, R310). -/
def addrBytes (a : U24) : List Byte := toBytes 3 a

/-- Bits 3:0 of a register byte (30_encoding R305, R306). -/
def lowNibble (b : Byte) : Reg := b.extractLsb' 0 4

/-- Bits 7:4 of a register byte (30_encoding R305, R306). -/
def highNibble (b : Byte) : Reg := b.extractLsb' 4 4

/-- `a ++ b` of 00_scope R12, for two nibbles: `hi` in bits 7:4, `lo` in bits 3:0. -/
def nibbles (hi lo : Reg) : Byte := hi ++ lo

end Sys2Proof
end

