-- ==== Sys2Proof/WellFormed.lean ====
section
/-! DEFINITION. Well-formed instructions: every register view lies inside the register file (30_encoding R308). -/

namespace Sys2Proof

/-- `NREG` = 9 register cells (00_scope R10, 10_state R101). -/
def numCells : Nat := 9

/-- A view `reg(i, w)` is legal only when `i + w <= 9` (10_state R104, 30_encoding R308). -/
def viewOk (w : Nat) (r : Reg) : Bool := r.toNat + w ≤ numCells

/-- The register check of 30_encoding R308, for each format that names registers; in format RR both fields are
checked. Every other operand value is legal (R317). -/
def Instr.wf : Instr → Bool
  | .add1 d s => viewOk 1 d && viewOk 1 s
  | .add2 d s => viewOk 2 d && viewOk 2 s
  | .add3 d s => viewOk 3 d && viewOk 3 s
  | .sub1 d s => viewOk 1 d && viewOk 1 s
  | .sub2 d s => viewOk 2 d && viewOk 2 s
  | .sub3 d s => viewOk 3 d && viewOk 3 s
  | .inc1 r => viewOk 1 r
  | .inc2 r => viewOk 2 r
  | .inc3 r => viewOk 3 r
  | .dec1 r => viewOk 1 r
  | .dec2 r => viewOk 2 r
  | .dec3 r => viewOk 3 r
  | .addi1 d _ => viewOk 1 d
  | .addi2 d _ => viewOk 2 d
  | .addi3 d _ => viewOk 3 d
  | .and1 d s => viewOk 1 d && viewOk 1 s
  | .and2 d s => viewOk 2 d && viewOk 2 s
  | .and3 d s => viewOk 3 d && viewOk 3 s
  | .or1 d s => viewOk 1 d && viewOk 1 s
  | .or2 d s => viewOk 2 d && viewOk 2 s
  | .or3 d s => viewOk 3 d && viewOk 3 s
  | .xor1 d s => viewOk 1 d && viewOk 1 s
  | .xor2 d s => viewOk 2 d && viewOk 2 s
  | .xor3 d s => viewOk 3 d && viewOk 3 s
  | .not1 r => viewOk 1 r
  | .not2 r => viewOk 2 r
  | .not3 r => viewOk 3 r
  | .cmp1 d s => viewOk 1 d && viewOk 1 s
  | .cmp2 d s => viewOk 2 d && viewOk 2 s
  | .cmp3 d s => viewOk 3 d && viewOk 3 s
  | .tst1 d s => viewOk 1 d && viewOk 1 s
  | .tst2 d s => viewOk 2 d && viewOk 2 s
  | .tst3 d s => viewOk 3 d && viewOk 3 s
  | .mov1 d s => viewOk 1 d && viewOk 1 s
  | .mov2 d s => viewOk 2 d && viewOk 2 s
  | .mov3 d s => viewOk 3 d && viewOk 3 s
  | .loadi1 d _ => viewOk 1 d
  | .loadi2 d _ => viewOk 2 d
  | .loadi3 d _ => viewOk 3 d
  | .load1 d _ => viewOk 1 d
  | .load2 d _ => viewOk 2 d
  | .load3 d _ => viewOk 3 d
  | .store1 d _ => viewOk 1 d
  | .store2 d _ => viewOk 2 d
  | .store3 d _ => viewOk 3 d
  | .push1 r => viewOk 1 r
  | .push2 r => viewOk 2 r
  | .push3 r => viewOk 3 r
  | .pop1 r => viewOk 1 r
  | .pop2 r => viewOk 2 r
  | .pop3 r => viewOk 3 r
  | .jmp _ => true
  | .jz _ => true
  | .jnz _ => true
  | .jc _ => true
  | .jnc _ => true
  | .jsr _ => true
  | .rts => true
  | .hlt => true

end Sys2Proof
end

