-- ==== Sys2Proof/Decode.lean ====
section
/-! DEFINITION. The opcode map, the decoder and the encoder of 30_encoding R300 to R320. -/

namespace Sys2Proof

/-- The six operand formats of 30_encoding R304 to R310, each with the operation it builds. `w` is the operand
width in bytes. -/
inductive Shape where
  /-- Format Z: no operand (R304). -/
  | z (i : Instr)
  /-- Format R: one register (R305). -/
  | r (w : Nat) (mk : Reg → Instr)
  /-- Format RR: destination in the low nibble, source in the high nibble (R306). -/
  | rr (w : Nat) (mk : Reg → Reg → Instr)
  /-- Format RI: a register and a `w`-byte immediate (R307). -/
  | ri (w : Nat) (mk : Reg → Val w → Instr)
  /-- Format RA: a register and a 3-byte address (R309). -/
  | ra (w : Nat) (mk : Reg → U24 → Instr)
  /-- Format A: a 3-byte address (R310). -/
  | a (mk : U24 → Instr)

/-- The field W of the code: the operand width, 0 for an operation without one (R302). -/
def Shape.width : Shape → Nat
  | .z _ | .a _ => 0
  | .r w _ | .rr w _ | .ri w _ | .ra w _ => w

/-- One row of the opcode map: the mnemonic without its width suffix, the 16-bit code, the format (R312). -/
structure OpRow where
  name : String
  code : Code
  shape : Shape

/-- The opcode map, the complete list of valid codes (30_encoding R312). -/
def opcodeMap : List OpRow := [
  ⟨"ADD", 0x0205#16, .rr 1 .add1⟩,
  ⟨"ADD", 0x0206#16, .rr 2 .add2⟩,
  ⟨"ADD", 0x0207#16, .rr 3 .add3⟩,
  ⟨"SUB", 0x0209#16, .rr 1 .sub1⟩,
  ⟨"SUB", 0x020A#16, .rr 2 .sub2⟩,
  ⟨"SUB", 0x020B#16, .rr 3 .sub3⟩,
  ⟨"INC", 0x020D#16, .r 1 .inc1⟩,
  ⟨"INC", 0x020E#16, .r 2 .inc2⟩,
  ⟨"INC", 0x020F#16, .r 3 .inc3⟩,
  ⟨"DEC", 0x0211#16, .r 1 .dec1⟩,
  ⟨"DEC", 0x0212#16, .r 2 .dec2⟩,
  ⟨"DEC", 0x0213#16, .r 3 .dec3⟩,
  ⟨"ADDI", 0x0415#16, .ri 1 .addi1⟩,
  ⟨"ADDI", 0x0616#16, .ri 2 .addi2⟩,
  ⟨"ADDI", 0x0817#16, .ri 3 .addi3⟩,
  ⟨"AND", 0x0219#16, .rr 1 .and1⟩,
  ⟨"AND", 0x021A#16, .rr 2 .and2⟩,
  ⟨"AND", 0x021B#16, .rr 3 .and3⟩,
  ⟨"OR", 0x021D#16, .rr 1 .or1⟩,
  ⟨"OR", 0x021E#16, .rr 2 .or2⟩,
  ⟨"OR", 0x021F#16, .rr 3 .or3⟩,
  ⟨"XOR", 0x0221#16, .rr 1 .xor1⟩,
  ⟨"XOR", 0x0222#16, .rr 2 .xor2⟩,
  ⟨"XOR", 0x0223#16, .rr 3 .xor3⟩,
  ⟨"NOT", 0x0225#16, .r 1 .not1⟩,
  ⟨"NOT", 0x0226#16, .r 2 .not2⟩,
  ⟨"NOT", 0x0227#16, .r 3 .not3⟩,
  ⟨"CMP", 0x0229#16, .rr 1 .cmp1⟩,
  ⟨"CMP", 0x022A#16, .rr 2 .cmp2⟩,
  ⟨"CMP", 0x022B#16, .rr 3 .cmp3⟩,
  ⟨"TST", 0x022D#16, .rr 1 .tst1⟩,
  ⟨"TST", 0x022E#16, .rr 2 .tst2⟩,
  ⟨"TST", 0x022F#16, .rr 3 .tst3⟩,
  ⟨"MOV", 0x0231#16, .rr 1 .mov1⟩,
  ⟨"MOV", 0x0232#16, .rr 2 .mov2⟩,
  ⟨"MOV", 0x0233#16, .rr 3 .mov3⟩,
  ⟨"LOADI", 0x0435#16, .ri 1 .loadi1⟩,
  ⟨"LOADI", 0x0636#16, .ri 2 .loadi2⟩,
  ⟨"LOADI", 0x0837#16, .ri 3 .loadi3⟩,
  ⟨"LOAD", 0x0839#16, .ra 1 .load1⟩,
  ⟨"LOAD", 0x083A#16, .ra 2 .load2⟩,
  ⟨"LOAD", 0x083B#16, .ra 3 .load3⟩,
  ⟨"STORE", 0x083D#16, .ra 1 .store1⟩,
  ⟨"STORE", 0x083E#16, .ra 2 .store2⟩,
  ⟨"STORE", 0x083F#16, .ra 3 .store3⟩,
  ⟨"PUSH", 0x0241#16, .r 1 .push1⟩,
  ⟨"PUSH", 0x0242#16, .r 2 .push2⟩,
  ⟨"PUSH", 0x0243#16, .r 3 .push3⟩,
  ⟨"POP", 0x0245#16, .r 1 .pop1⟩,
  ⟨"POP", 0x0246#16, .r 2 .pop2⟩,
  ⟨"POP", 0x0247#16, .r 3 .pop3⟩,
  ⟨"JMP", 0x0648#16, .a .jmp⟩,
  ⟨"JZ", 0x064C#16, .a .jz⟩,
  ⟨"JNZ", 0x0650#16, .a .jnz⟩,
  ⟨"JC", 0x0654#16, .a .jc⟩,
  ⟨"JNC", 0x0658#16, .a .jnc⟩,
  ⟨"JSR", 0x065C#16, .a .jsr⟩,
  ⟨"RTS", 0x0060#16, .z .rts⟩,
  ⟨"HLT", 0x0064#16, .z .hlt⟩]

/-- The operand byte count is `code[11:9]`, read without the table (30_encoding R301, 90_conflicts C4). -/
def operandCount (c : Code) : Nat := (c.extractLsb' 9 3).toNat

/-- The instruction length `OPW + N` (30_encoding R301, R318). -/
def codeLength (c : Code) : Nat := 2 + operandCount c

/-- Look a code up in the opcode map; `none` is an invalid code (30_encoding R303, R314 step 3). -/
def lookup (c : Code) : Option OpRow := opcodeMap.find? (fun row => row.code == c)

/-- Why operand bytes cannot be interpreted (30_encoding R314 step 5, 60_exceptions R805). -/
inductive OperandError where
  /-- Fewer or more bytes than the format has; the decoder never passes it such a list for a valid code. -/
  | missing
  /-- A single-register byte with non-zero bits 7:4 (R305, R307, R309). -/
  | packing
  /-- A register field with `r + w > 9` (R308). -/
  | register
deriving DecidableEq, Repr

/-- A single-register byte: bits 7:4 must be 0, then the index must satisfy R308 (order of 60_exceptions R806). -/
def decodeOneReg (w : Nat) (b : Byte) (mk : Reg → Instr) : Except OperandError Instr :=
  if highNibble b ≠ 0#4 then .error .packing
  else if viewOk w (lowNibble b) then .ok (mk (lowNibble b))
  else .error .register

/-- Interpret the operand bytes by the operation's format (30_encoding R304 to R310, R314 step 5). -/
def decodeOperands : Shape → List Byte → Except OperandError Instr
  | .z i, [] => .ok i
  | .r w mk, [b] => decodeOneReg w b mk
  | .rr w mk, [b] =>
    if viewOk w (lowNibble b) && viewOk w (highNibble b) then .ok (mk (lowNibble b) (highNibble b))
    else .error .register
  | .ri w mk, b :: bs =>
    if bs.length = w then decodeOneReg w b (fun r => mk r (ofBytes w bs)) else .error .missing
  | .ra w mk, b :: bs =>
    if bs.length = 3 then decodeOneReg w b (fun r => mk r (addrOfBytes bs)) else .error .missing
  | .a mk, bs => if bs.length = 3 then .ok (mk (addrOfBytes bs)) else .error .missing
  | _, _ => .error .missing

/-- Why the decoder rejects bytes, by name; each carries the raw code where there is one (60_exceptions R804). -/
inductive DecodeError where
  /-- Fewer than two bytes: no opcode word. -/
  | noOpcode
  /-- The word is none of the 59 codes: InvalidOpCode (R303, R316). -/
  | invalidOpCode (c : Code)
  /-- The operand bytes run out: InvalidInstruction, Truncated (R805). -/
  | truncated (c : Code)
  /-- InvalidInstruction, Packing (R805). -/
  | packing (c : Code)
  /-- InvalidInstruction, Register (R805). -/
  | register (c : Code)
deriving DecidableEq, Repr

/-- The decoder's name for an operand error of code `c`. -/
def OperandError.toDecodeError (c : Code) : OperandError → DecodeError
  | .missing => .truncated c
  | .packing => .packing c
  | .register => .register c

/-- The decoder's contract (30_encoding R314) on a list of bytes: the instruction and the bytes after it, so that
`bytes_consumed` is the difference in length. Total on any bytes; the engine's own fetch, which also checks that
each byte is backed, is `Machine.State.fetch`. -/
def decode : List Byte → Except DecodeError (Instr × List Byte)
  | lo :: hi :: rest =>
    let c : Code := BitVec.ofNat 16 (leNat [lo, hi])
    match lookup c with
    | none => .error (.invalidOpCode c)
    | some row =>
      if rest.length < operandCount c then .error (.truncated c)
      else match decodeOperands row.shape (rest.take (operandCount c)) with
        | .ok i => .ok (i, rest.drop (operandCount c))
        | .error e => .error (e.toDecodeError c)
  | _ => .error .noOpcode

/-- The 16-bit code of an instruction's operation (30_encoding R312, R313). -/
def Instr.code : Instr → Code
  | .add1 _ _ => 0x0205#16
  | .add2 _ _ => 0x0206#16
  | .add3 _ _ => 0x0207#16
  | .sub1 _ _ => 0x0209#16
  | .sub2 _ _ => 0x020A#16
  | .sub3 _ _ => 0x020B#16
  | .inc1 _ => 0x020D#16
  | .inc2 _ => 0x020E#16
  | .inc3 _ => 0x020F#16
  | .dec1 _ => 0x0211#16
  | .dec2 _ => 0x0212#16
  | .dec3 _ => 0x0213#16
  | .addi1 _ _ => 0x0415#16
  | .addi2 _ _ => 0x0616#16
  | .addi3 _ _ => 0x0817#16
  | .and1 _ _ => 0x0219#16
  | .and2 _ _ => 0x021A#16
  | .and3 _ _ => 0x021B#16
  | .or1 _ _ => 0x021D#16
  | .or2 _ _ => 0x021E#16
  | .or3 _ _ => 0x021F#16
  | .xor1 _ _ => 0x0221#16
  | .xor2 _ _ => 0x0222#16
  | .xor3 _ _ => 0x0223#16
  | .not1 _ => 0x0225#16
  | .not2 _ => 0x0226#16
  | .not3 _ => 0x0227#16
  | .cmp1 _ _ => 0x0229#16
  | .cmp2 _ _ => 0x022A#16
  | .cmp3 _ _ => 0x022B#16
  | .tst1 _ _ => 0x022D#16
  | .tst2 _ _ => 0x022E#16
  | .tst3 _ _ => 0x022F#16
  | .mov1 _ _ => 0x0231#16
  | .mov2 _ _ => 0x0232#16
  | .mov3 _ _ => 0x0233#16
  | .loadi1 _ _ => 0x0435#16
  | .loadi2 _ _ => 0x0636#16
  | .loadi3 _ _ => 0x0837#16
  | .load1 _ _ => 0x0839#16
  | .load2 _ _ => 0x083A#16
  | .load3 _ _ => 0x083B#16
  | .store1 _ _ => 0x083D#16
  | .store2 _ _ => 0x083E#16
  | .store3 _ _ => 0x083F#16
  | .push1 _ => 0x0241#16
  | .push2 _ => 0x0242#16
  | .push3 _ => 0x0243#16
  | .pop1 _ => 0x0245#16
  | .pop2 _ => 0x0246#16
  | .pop3 _ => 0x0247#16
  | .jmp _ => 0x0648#16
  | .jz _ => 0x064C#16
  | .jnz _ => 0x0650#16
  | .jc _ => 0x0654#16
  | .jnc _ => 0x0658#16
  | .jsr _ => 0x065C#16
  | .rts => 0x0060#16
  | .hlt => 0x0064#16

/-- The operand bytes of an instruction by its format (30_encoding R304 to R310, R319). -/
def Instr.operands : Instr → List Byte
  | .add1 d s => [nibbles s d]
  | .add2 d s => [nibbles s d]
  | .add3 d s => [nibbles s d]
  | .sub1 d s => [nibbles s d]
  | .sub2 d s => [nibbles s d]
  | .sub3 d s => [nibbles s d]
  | .inc1 r => [nibbles 0#4 r]
  | .inc2 r => [nibbles 0#4 r]
  | .inc3 r => [nibbles 0#4 r]
  | .dec1 r => [nibbles 0#4 r]
  | .dec2 r => [nibbles 0#4 r]
  | .dec3 r => [nibbles 0#4 r]
  | .addi1 d imm => nibbles 0#4 d :: toBytes 1 imm
  | .addi2 d imm => nibbles 0#4 d :: toBytes 2 imm
  | .addi3 d imm => nibbles 0#4 d :: toBytes 3 imm
  | .and1 d s => [nibbles s d]
  | .and2 d s => [nibbles s d]
  | .and3 d s => [nibbles s d]
  | .or1 d s => [nibbles s d]
  | .or2 d s => [nibbles s d]
  | .or3 d s => [nibbles s d]
  | .xor1 d s => [nibbles s d]
  | .xor2 d s => [nibbles s d]
  | .xor3 d s => [nibbles s d]
  | .not1 r => [nibbles 0#4 r]
  | .not2 r => [nibbles 0#4 r]
  | .not3 r => [nibbles 0#4 r]
  | .cmp1 d s => [nibbles s d]
  | .cmp2 d s => [nibbles s d]
  | .cmp3 d s => [nibbles s d]
  | .tst1 d s => [nibbles s d]
  | .tst2 d s => [nibbles s d]
  | .tst3 d s => [nibbles s d]
  | .mov1 d s => [nibbles s d]
  | .mov2 d s => [nibbles s d]
  | .mov3 d s => [nibbles s d]
  | .loadi1 d imm => nibbles 0#4 d :: toBytes 1 imm
  | .loadi2 d imm => nibbles 0#4 d :: toBytes 2 imm
  | .loadi3 d imm => nibbles 0#4 d :: toBytes 3 imm
  | .load1 d addr => nibbles 0#4 d :: addrBytes addr
  | .load2 d addr => nibbles 0#4 d :: addrBytes addr
  | .load3 d addr => nibbles 0#4 d :: addrBytes addr
  | .store1 d addr => nibbles 0#4 d :: addrBytes addr
  | .store2 d addr => nibbles 0#4 d :: addrBytes addr
  | .store3 d addr => nibbles 0#4 d :: addrBytes addr
  | .push1 r => [nibbles 0#4 r]
  | .push2 r => [nibbles 0#4 r]
  | .push3 r => [nibbles 0#4 r]
  | .pop1 r => [nibbles 0#4 r]
  | .pop2 r => [nibbles 0#4 r]
  | .pop3 r => [nibbles 0#4 r]
  | .jmp addr => addrBytes addr
  | .jz addr => addrBytes addr
  | .jnz addr => addrBytes addr
  | .jc addr => addrBytes addr
  | .jnc addr => addrBytes addr
  | .jsr addr => addrBytes addr
  | .rts => []
  | .hlt => []

/-- The encoder: `code[7:0]`, `code[15:8]`, then the operand bytes (30_encoding R319). -/
def encode (i : Instr) : List Byte := leBytes 2 i.code.toNat ++ i.operands

/-- The longest instruction is 6 bytes (30_encoding R300). -/
def maxLength : Nat := 6

/-- The bytes of a table word: bit 0 of `w` is the least significant bit of the first byte, `nbits` bits count and
every bit above them, up to the longest instruction, is 0. -/
def tableWordBytes (nbits w : Nat) : List Byte := leBytes maxLength (w % 2 ^ nbits)

/-- The instruction the decoder reads from a table word, `none` where it refuses. -/
def decodeTableWord (nbits w : Nat) : Option Instr :=
  match decode (tableWordBytes nbits w) with
  | .ok (i, _) => some i
  | .error _ => none

end Sys2Proof
end

