-- ==== Sys2Proof/Machine/U24.lean ====
section
/-! DEFINITION. The 24-bit integer unit (40_datapath R404 to R409): construction, wrapping arithmetic, bitwise
operators, order, logical shifts and text parsing. -/

namespace Sys2Proof

/-- Construction: `u24(v) = v mod 2^24` (R404). -/
def u24 (v : Nat) : U24 := BitVec.ofNat 24 v

/-- `add24(a, b) = u24(a + b)`; it wraps and never fails (R405, 90_conflicts C6). -/
def add24 (a b : U24) : U24 := u24 (a.toNat + b.toNat)

/-- `sub24(a, b) = u24(a - b + 2^24)` (R405). -/
def sub24 (a b : U24) : U24 := u24 (a.toNat + 2 ^ 24 - b.toNat)

/-- Bitwise AND (R406). -/
def and24 (a b : U24) : U24 := a &&& b

/-- Bitwise OR (R406). -/
def or24 (a b : U24) : U24 := a ||| b

/-- Bitwise exclusive OR (R406). -/
def xor24 (a b : U24) : U24 := a ^^^ b

/-- The complement, masked to 24 bits: `0xFFFFFF ^ a` (R406). -/
def not24 (a : U24) : U24 := 0xFFFFFF#24 ^^^ a

/-- Unsigned order (R407). Equality is numeric, that is equality of the values. -/
def lt24 (a b : U24) : Bool := a.toNat < b.toNat

/-- Logical left shift: `u24(a * 2^n)`, 0 for n >= 24 (R409). No instruction uses it. -/
def shl24 (a : U24) (n : Nat) : U24 := u24 (a.toNat * 2 ^ n)

/-- Logical right shift: `floor(a / 2^n)`, 0 for n >= 24 (R409). No instruction uses it. -/
def shr24 (a : U24) (n : Nat) : U24 := u24 (a.toNat / 2 ^ n)

/-- The value of a decimal digit. -/
def decDigit (c : Char) : Option Nat :=
  if '0' ≤ c ∧ c ≤ '9' then some (c.toNat - 48) else none

/-- The value of a hexadecimal digit of either case (30_encoding R327). -/
def hexDigit (c : Char) : Option Nat :=
  if '0' ≤ c ∧ c ≤ '9' then some (c.toNat - 48)
  else if 'a' ≤ c ∧ c ≤ 'f' then some (c.toNat - 87)
  else if 'A' ≤ c ∧ c ≤ 'F' then some (c.toNat - 55)
  else none

/-- Read digits of a base onto the value `acc`, most significant first; `none` if one is no digit. -/
def digitsFrom (base : Nat) (digit : Char → Option Nat) : Nat → List Char → Option Nat
  | acc, [] => some acc
  | acc, c :: cs =>
    match digit c with
    | some v => digitsFrom base digit (acc * base + v) cs
    | none => none

/-- The number written by one or more digits of a base. -/
def digitsNat (base : Nat) (digit : Char → Option Nat) (cs : List Char) : Option Nat :=
  if cs.isEmpty then none else digitsFrom base digit 0 cs

/-- The unit's own parser: a decimal digit string, or `0x` followed by hexadecimal digits, masked to 24 bits
(R408). -/
def parse24 (t : List Char) : Option U24 :=
  match t with
  | '0' :: 'x' :: hex => (digitsNat 16 hexDigit hex).map u24
  | _ => (digitsNat 10 decDigit t).map u24

end Sys2Proof
end

