-- ==== Sys2Proof/Machine/Ops.lean ====
section
/-! DEFINITION. The named operations over memory, taking a fault, and completing an instruction. A rexta fault has
no handler and no return (60_exceptions R800, R809), so taking one is the only exception operation. -/

namespace Sys2Proof

/-- The byte at an address; an unlisted address reads as 0x00 (20_memory R205, log entry 7). -/
def Memory.read : Memory → Nat → Byte
  | [], _ => 0#8
  | (b, v) :: rest, a => if b = a then v else Memory.read rest a

/-- Put an entry before the first entry with a greater address. -/
def Memory.insert (a : Nat) (v : Byte) : Memory → Memory
  | [] => [(a, v)]
  | (b, x) :: rest => if a < b then (a, v) :: (b, x) :: rest else (b, x) :: Memory.insert a v rest

/-- Write one byte, keeping the canonical form: writing 0x00 removes the entry (20_memory R206, log entry 7). -/
def Memory.write (m : Memory) (a : Nat) (v : Byte) : Memory :=
  let others := m.filter (fun c => c.1 != a)
  if v = 0#8 then others else Memory.insert a v others

/-- Write bytes at `a`, `a + 1`, ..., addresses taken modulo 2^24 (20_memory R203, R206). -/
def Memory.writeBytes (m : Memory) (a : U24) : List Byte → Memory
  | [] => m
  | v :: vs => Memory.writeBytes (m.write a.toNat v) (add24 a 1#24) vs

end Sys2Proof

namespace Sys2Proof.Machine

/-- The byte at a 24-bit address. -/
def State.byteAt (s : State) (a : U24) : Byte := s.mem.read a.toNat

/-- An address is backed when it is below `MEM_SIZE` (20_memory R201). -/
def State.backed (s : State) (a : U24) : Bool := a.toNat < s.cfg.memSize.1

/-- The byte addresses `(a + k) mod 2^24`, k < n, of an n-byte access, in order (20_memory R203). -/
def accessAddrs (a : U24) (n : Nat) : List U24 := (List.range n).map (fun k => add24 a (u24 k))

/-- `inMem(a, n)`: every byte of the access is backed (20_memory R204). -/
def State.inMem (s : State) (a : U24) (n : Nat) : Bool := (accessAddrs a n).all s.backed

/-- `firstBad(a, n)`: the first byte address, in order of k, that is not backed (20_memory R204). -/
def State.firstBad (s : State) (a : U24) (n : Nat) : Option U24 :=
  (accessAddrs a n).find? (fun b => !s.backed b)

/-- The n bytes of an access, lowest k first (20_memory R203). -/
def State.readBytes (s : State) (a : U24) (n : Nat) : List Byte := (accessAddrs a n).map s.byteAt

/-- `MemRead(a, n)`, little-endian; the caller has checked `inMem` (20_memory R205). -/
def State.memRead (s : State) (a : U24) (n : Nat) : Val n := ofBytes n (s.readBytes a n)

/-- `MemWrite(a, n, v)`, little-endian; the caller has checked `inMem` (20_memory R206). -/
def State.memWrite (s : State) (a : U24) (n : Nat) (v : Val n) : State :=
  { s with mem := s.mem.writeBytes a (toBytes n v) }

/-- The kind of fault each reason belongs to (60_exceptions R802). -/
def FaultReason.kind : FaultReason → FaultKind
  | .unknown => .invalidOpCode
  | .truncated | .packing | .register => .invalidInstruction
  | .fetch | .data | .stack => .memoryFault

/-- Taking a fault (60_exceptions R808): write the fault record and enter Faulted. Nothing else changes, and `pc`
stays at the first byte of the faulting instruction (R801). -/
def State.raise (s : State) (reason : FaultReason) (code : Option Code) (addr : Option U24) : State :=
  { s with
    engine := .faulted
    fault := some { kind := reason.kind, pc := s.pc, code := code, addr := addr, reason := reason } }

/-- `next`, the address of the byte after the current instruction: `u24(a + 2 + N)` (40_datapath R400). -/
def State.nextPc (s : State) (c : Code) : U24 := add24 s.pc (u24 (codeLength c))

/-- The end of an instruction that completes: `pc` and the instruction counter (40_datapath R400, 10_state R113). -/
def State.complete (s : State) (npc : U24) : State :=
  { s with pc := npc, icount := (s.icount + 1) % 2 ^ s.cfg.icountBits }

/-- An access of the execute phase: if every byte is backed the instruction takes its effect, else it raises a
MemoryFault with the first unbacked byte and changes nothing (20_memory R206, 60_exceptions R801, R807). -/
def State.checkAccess (s : State) (reason : FaultReason) (c : Code) (a : U24) (n : Nat) (done : State) : State :=
  if s.inMem a n then done else s.raise reason (some c) (s.firstBad a n)

/-- Entering Running from Idle, as `run()` and `step()` do (10_state R111, 70_reset R910). -/
def State.enter (s : State) : State :=
  match s.engine with
  | .idle => { s with engine := .running }
  | _ => s

/-- A step is enabled in Idle and Running; Halted and Faulted are terminal (10_state R111, 70_reset R910). -/
def State.enabled (s : State) : Bool :=
  match s.engine with
  | .idle | .running => true
  | .halted | .faulted => false

end Sys2Proof.Machine
end

