-- ==== Sys2Proof/Machine/Operands.lean ====
section
/-! DEFINITION. Register views (10_state R103) and the operand forms: one shared operation per form, over which
each instruction's meaning is one line. In every form the sources are read from the state at the start of the step
before any destination is written (40_datapath R402). -/

namespace Sys2Proof.Machine

/-- Register cell `x[i]`. No checked view reads an index above 8 (10_state R104). -/
def State.cell (s : State) (i : Nat) : Byte := s.regs[i]?.getD 0#8

/-- `reg(i, w)`: the w-byte little-endian view starting at cell i (10_state R103). -/
def State.reg (s : State) (r : Reg) (w : Nat) : Val w :=
  ofBytes w ((List.range w).map (fun k => s.cell (r.toNat + k)))

/-- Write bytes to cells i, i + 1, ... (10_state R103); no checked view writes above cell 8 (R104). -/
def writeCells (regs : Vector Byte 9) (i : Nat) : List Byte → Vector Byte 9
  | [] => regs
  | b :: bs => writeCells (regs.setIfInBounds i b) (i + 1) bs

/-- `setreg(i, w, v)`: byte k of v to cell i + k (10_state R103). -/
def State.setReg (s : State) (r : Reg) (w : Nat) (v : Val w) : State :=
  { s with regs := writeCells s.regs r.toNat (toBytes w v) }

/-- Every register field of an executed instruction satisfies `i + w <= 9` (10_state R104, 30_encoding R308). The
decoder never lets another instruction through; a term that fails it raises the same InvalidInstruction here, so
that no cell outside the file is ever touched (log entry 5). -/
def State.checkViews (s : State) (c : Code) (w : Nat) (rs : List Reg) (done : State) : State :=
  if rs.all (viewOk w) then done else s.raise .register (some c) none

/-- Format RR, result written to the destination view: ADD, SUB, AND, OR, XOR, MOV (R450, R454, R500, R504, R508,
R554). -/
def State.binary (s : State) (c : Code) (w : Nat) (f : Val w → Val w → Val w × Bool) (d r : Reg) : State :=
  let res := f (s.reg d w) (s.reg r w)
  s.checkViews c w [d, r] (((s.setReg d w res.1).setFlags res.1 res.2).complete (s.nextPc c))

/-- Format RR, only the flags written: CMP and TST (R470, R516). -/
def State.compare (s : State) (c : Code) (w : Nat) (f : Val w → Val w → Val w × Bool) (d r : Reg) : State :=
  let res := f (s.reg d w) (s.reg r w)
  s.checkViews c w [d, r] ((s.setFlags res.1 res.2).complete (s.nextPc c))

/-- Format R, view rewritten: INC, DEC, NOT (R458, R462, R512). -/
def State.unary (s : State) (c : Code) (w : Nat) (f : Val w → Val w × Bool) (r : Reg) : State :=
  let res := f (s.reg r w)
  s.checkViews c w [r] (((s.setReg r w res.1).setFlags res.1 res.2).complete (s.nextPc c))

/-- Format RI: ADDI and LOADI (R466, R550). -/
def State.immediate (s : State) (c : Code) (w : Nat) (f : Val w → Val w → Val w × Bool) (d : Reg) (imm : Val w) :
    State :=
  let res := f (s.reg d w) imm
  s.checkViews c w [d] (((s.setReg d w res.1).setFlags res.1 res.2).complete (s.nextPc c))

/-- Format RA, from memory: LOAD.w (44_load_store R600 to R603). -/
def State.load (s : State) (c : Code) (w : Nat) (d : Reg) (a : U24) : State :=
  let v := s.memRead a w
  s.checkViews c w [d]
    (s.checkAccess .data c a w (((s.setReg d w v).setFlags v false).complete (s.nextPc c)))

/-- Format RA, to memory: STORE.w (44_load_store R600, R604 to R607). -/
def State.store (s : State) (c : Code) (w : Nat) (d : Reg) (a : U24) : State :=
  let v := s.reg d w
  s.checkViews c w [d]
    (s.checkAccess .data c a w (((s.memWrite a w v).setFlags v false).complete (s.nextPc c)))

/-- Format A, a jump on a condition: taken, `pc` is the target; not taken, `next` (45_jumps R650). -/
def State.jumpIf (s : State) (c : Code) (taken : Bool) (target : U24) : State :=
  s.complete (if taken then target else s.nextPc c)

/-- The address a push of n bytes writes at: `sp` lowered by n (46_call_stack R702). -/
def State.pushAddr (s : State) (n : Nat) : U24 := sub24 s.sp (u24 n)

/-- A push of an n-byte item, then `pc`: `sp` is lowered first and the item written at the new `sp`
(46_call_stack R702). -/
def State.pushThen (s : State) (c : Code) (n : Nat) (v : Val n) (npc : U24) : State :=
  s.checkAccess .stack c (s.pushAddr n) n
    (({ s.memWrite (s.pushAddr n) n v with sp := s.pushAddr n } : State).complete npc)

/-- `sp` after a pop of n bytes (46_call_stack R702). -/
def State.popSp (s : State) (n : Nat) : U24 := add24 s.sp (u24 n)

/-- Format R, onto the stack: PUSH.w (46_call_stack R704 to R707). -/
def State.push (s : State) (c : Code) (w : Nat) (r : Reg) : State :=
  s.checkViews c w [r] (s.pushThen c w (s.reg r w) (s.nextPc c))

/-- Format R, from the stack: POP.w (46_call_stack R704, R708 to R711). -/
def State.pop (s : State) (c : Code) (w : Nat) (r : Reg) : State :=
  s.checkViews c w [r]
    (s.checkAccess .stack c s.sp w
      (({ s.setReg r w (s.memRead s.sp w) with sp := s.popSp w } : State).complete (s.nextPc c)))

/-- JSR: push the return address `next`, three bytes, and jump (46_call_stack R700). -/
def State.call (s : State) (c : Code) (target : U24) : State :=
  s.pushThen c 3 (s.nextPc c) target

/-- RTS: pop three bytes into `pc` (46_call_stack R701). -/
def State.ret (s : State) (c : Code) : State :=
  s.checkAccess .stack c s.sp 3
    (({ s with sp := s.popSp 3 } : State).complete (s.memRead s.sp 3))

/-- HLT: enter Halted; `pc` goes to the byte after it and it is counted (47_halt R750). -/
def State.halt (s : State) (c : Code) : State :=
  ({ s with engine := .halted } : State).complete (s.nextPc c)

end Sys2Proof.Machine
end

