-- ==== Sys2Proof/Machine/Arith.lean ====
section
/-! DEFINITION. The arithmetic instructions ADD, SUB, INC, DEC, ADDI and CMP (41_arithmetic R450 to R473). -/

namespace Sys2Proof.Machine

/-- `ADD.1`: adds the source view to the destination view; C is the carry out (R451). -/
def execAdd1 (d r : Reg) (s : State) : Result :=
  .next (s.binary (Instr.code (.add1 d r)) 1 addw d r)

/-- `ADD.2`: adds the source view to the destination view; C is the carry out (R452). -/
def execAdd2 (d r : Reg) (s : State) : Result :=
  .next (s.binary (Instr.code (.add2 d r)) 2 addw d r)

/-- `ADD.3`: adds the source view to the destination view; C is the carry out (R453). -/
def execAdd3 (d r : Reg) (s : State) : Result :=
  .next (s.binary (Instr.code (.add3 d r)) 3 addw d r)

/-- `SUB.1`: subtracts the source view from the destination view; C is the borrow (R455). -/
def execSub1 (d r : Reg) (s : State) : Result :=
  .next (s.binary (Instr.code (.sub1 d r)) 1 subw d r)

/-- `SUB.2`: subtracts the source view from the destination view; C is the borrow (R456). -/
def execSub2 (d r : Reg) (s : State) : Result :=
  .next (s.binary (Instr.code (.sub2 d r)) 2 subw d r)

/-- `SUB.3`: subtracts the source view from the destination view; C is the borrow (R457). -/
def execSub3 (d r : Reg) (s : State) : Result :=
  .next (s.binary (Instr.code (.sub3 d r)) 3 subw d r)

/-- `INC.1`: adds 1 to the view; C is the carry out (R459). -/
def execInc1 (r : Reg) (s : State) : Result :=
  .next (s.unary (Instr.code (.inc1 r)) 1 incw r)

/-- `INC.2`: adds 1 to the view; C is the carry out (R460). -/
def execInc2 (r : Reg) (s : State) : Result :=
  .next (s.unary (Instr.code (.inc2 r)) 2 incw r)

/-- `INC.3`: adds 1 to the view; C is the carry out (R461). -/
def execInc3 (r : Reg) (s : State) : Result :=
  .next (s.unary (Instr.code (.inc3 r)) 3 incw r)

/-- `DEC.1`: subtracts 1 from the view; C when the operand was 0 (R463). -/
def execDec1 (r : Reg) (s : State) : Result :=
  .next (s.unary (Instr.code (.dec1 r)) 1 decw r)

/-- `DEC.2`: subtracts 1 from the view; C when the operand was 0 (R464). -/
def execDec2 (r : Reg) (s : State) : Result :=
  .next (s.unary (Instr.code (.dec2 r)) 2 decw r)

/-- `DEC.3`: subtracts 1 from the view; C when the operand was 0 (R465). -/
def execDec3 (r : Reg) (s : State) : Result :=
  .next (s.unary (Instr.code (.dec3 r)) 3 decw r)

/-- `ADDI.1`: adds the immediate to the view; C is the carry out (R467). -/
def execAddi1 (d : Reg) (imm : BitVec 8) (s : State) : Result :=
  .next (s.immediate (Instr.code (.addi1 d imm)) 1 addw d imm)

/-- `ADDI.2`: adds the immediate to the view; C is the carry out (R468). -/
def execAddi2 (d : Reg) (imm : BitVec 16) (s : State) : Result :=
  .next (s.immediate (Instr.code (.addi2 d imm)) 2 addw d imm)

/-- `ADDI.3`: adds the immediate to the view; C is the carry out (R469). -/
def execAddi3 (d : Reg) (imm : BitVec 24) (s : State) : Result :=
  .next (s.immediate (Instr.code (.addi3 d imm)) 3 addw d imm)

/-- `CMP.1`: subtracts and writes only the flags (R471). -/
def execCmp1 (d r : Reg) (s : State) : Result :=
  .next (s.compare (Instr.code (.cmp1 d r)) 1 subw d r)

/-- `CMP.2`: subtracts and writes only the flags (R472). -/
def execCmp2 (d r : Reg) (s : State) : Result :=
  .next (s.compare (Instr.code (.cmp2 d r)) 2 subw d r)

/-- `CMP.3`: subtracts and writes only the flags (R473). -/
def execCmp3 (d r : Reg) (s : State) : Result :=
  .next (s.compare (Instr.code (.cmp3 d r)) 3 subw d r)

end Sys2Proof.Machine
end

