-- ==== Sys2Proof/Machine/Bitwise.lean ====
section
/-! DEFINITION. The bitwise instructions AND, OR, XOR, NOT and TST (42_bitwise R500 to R519). -/

namespace Sys2Proof.Machine

/-- `AND.1`: bitwise AND into the destination view; C cleared (R501). -/
def execAnd1 (d r : Reg) (s : State) : Result :=
  .next (s.binary (Instr.code (.and1 d r)) 1 andw d r)

/-- `AND.2`: bitwise AND into the destination view; C cleared (R502). -/
def execAnd2 (d r : Reg) (s : State) : Result :=
  .next (s.binary (Instr.code (.and2 d r)) 2 andw d r)

/-- `AND.3`: bitwise AND into the destination view; C cleared (R503). -/
def execAnd3 (d r : Reg) (s : State) : Result :=
  .next (s.binary (Instr.code (.and3 d r)) 3 andw d r)

/-- `OR.1`: bitwise OR into the destination view; C cleared (R505). -/
def execOr1 (d r : Reg) (s : State) : Result :=
  .next (s.binary (Instr.code (.or1 d r)) 1 orw d r)

/-- `OR.2`: bitwise OR into the destination view; C cleared (R506). -/
def execOr2 (d r : Reg) (s : State) : Result :=
  .next (s.binary (Instr.code (.or2 d r)) 2 orw d r)

/-- `OR.3`: bitwise OR into the destination view; C cleared (R507). -/
def execOr3 (d r : Reg) (s : State) : Result :=
  .next (s.binary (Instr.code (.or3 d r)) 3 orw d r)

/-- `XOR.1`: bitwise exclusive OR into the destination view; C cleared (R509). -/
def execXor1 (d r : Reg) (s : State) : Result :=
  .next (s.binary (Instr.code (.xor1 d r)) 1 xorw d r)

/-- `XOR.2`: bitwise exclusive OR into the destination view; C cleared (R510). -/
def execXor2 (d r : Reg) (s : State) : Result :=
  .next (s.binary (Instr.code (.xor2 d r)) 2 xorw d r)

/-- `XOR.3`: bitwise exclusive OR into the destination view; C cleared (R511). -/
def execXor3 (d r : Reg) (s : State) : Result :=
  .next (s.binary (Instr.code (.xor3 d r)) 3 xorw d r)

/-- `NOT.1`: complements the view; C cleared (R513). -/
def execNot1 (r : Reg) (s : State) : Result :=
  .next (s.unary (Instr.code (.not1 r)) 1 notw r)

/-- `NOT.2`: complements the view; C cleared (R514). -/
def execNot2 (r : Reg) (s : State) : Result :=
  .next (s.unary (Instr.code (.not2 r)) 2 notw r)

/-- `NOT.3`: complements the view; C cleared (R515). -/
def execNot3 (r : Reg) (s : State) : Result :=
  .next (s.unary (Instr.code (.not3 r)) 3 notw r)

/-- `TST.1`: ANDs and writes only the flags (R517). -/
def execTst1 (d r : Reg) (s : State) : Result :=
  .next (s.compare (Instr.code (.tst1 d r)) 1 andw d r)

/-- `TST.2`: ANDs and writes only the flags (R518). -/
def execTst2 (d r : Reg) (s : State) : Result :=
  .next (s.compare (Instr.code (.tst2 d r)) 2 andw d r)

/-- `TST.3`: ANDs and writes only the flags (R519). -/
def execTst3 (d r : Reg) (s : State) : Result :=
  .next (s.compare (Instr.code (.tst3 d r)) 3 andw d r)

end Sys2Proof.Machine
end

