-- ==== Sys2Proof/Machine/CallStack.lean ====
section
/-! DEFINITION. The call, return and stack instructions (46_call_stack R700 to R711). None writes a flag. -/

namespace Sys2Proof.Machine

/-- `JSR`: pushes the return address and jumps (R700). -/
def execJsr (addr : U24) (s : State) : Result :=
  .next (s.call (Instr.code (.jsr addr)) addr)

/-- `RTS`: pops the return address (R701). -/
def execRts (s : State) : Result :=
  .next (s.ret (Instr.code .rts))

/-- `PUSH.1`: pushes the view (R705). -/
def execPush1 (r : Reg) (s : State) : Result :=
  .next (s.push (Instr.code (.push1 r)) 1 r)

/-- `PUSH.2`: pushes the view (R706). -/
def execPush2 (r : Reg) (s : State) : Result :=
  .next (s.push (Instr.code (.push2 r)) 2 r)

/-- `PUSH.3`: pushes the view (R707). -/
def execPush3 (r : Reg) (s : State) : Result :=
  .next (s.push (Instr.code (.push3 r)) 3 r)

/-- `POP.1`: pops into the view (R709). -/
def execPop1 (r : Reg) (s : State) : Result :=
  .next (s.pop (Instr.code (.pop1 r)) 1 r)

/-- `POP.2`: pops into the view (R710). -/
def execPop2 (r : Reg) (s : State) : Result :=
  .next (s.pop (Instr.code (.pop2 r)) 2 r)

/-- `POP.3`: pops into the view (R711). -/
def execPop3 (r : Reg) (s : State) : Result :=
  .next (s.pop (Instr.code (.pop3 r)) 3 r)

end Sys2Proof.Machine
end

