-- ==== Sys2Proof/Machine/DataMove.lean ====
section
/-! DEFINITION. The data movement instructions LOADI and MOV (43_data_move R550 to R557). -/

namespace Sys2Proof.Machine

/-- `LOADI.1`: the immediate into the view; Z from it, C cleared (R551). -/
def execLoadi1 (d : Reg) (imm : BitVec 8) (s : State) : Result :=
  .next (s.immediate (Instr.code (.loadi1 d imm)) 1 movew d imm)

/-- `LOADI.2`: the immediate into the view; Z from it, C cleared (R552). -/
def execLoadi2 (d : Reg) (imm : BitVec 16) (s : State) : Result :=
  .next (s.immediate (Instr.code (.loadi2 d imm)) 2 movew d imm)

/-- `LOADI.3`: the immediate into the view; Z from it, C cleared (R553). -/
def execLoadi3 (d : Reg) (imm : BitVec 24) (s : State) : Result :=
  .next (s.immediate (Instr.code (.loadi3 d imm)) 3 movew d imm)

/-- `MOV.1`: the source view into the destination view; Z from it, C cleared (R555). -/
def execMov1 (d r : Reg) (s : State) : Result :=
  .next (s.binary (Instr.code (.mov1 d r)) 1 movew d r)

/-- `MOV.2`: the source view into the destination view; Z from it, C cleared (R556). -/
def execMov2 (d r : Reg) (s : State) : Result :=
  .next (s.binary (Instr.code (.mov2 d r)) 2 movew d r)

/-- `MOV.3`: the source view into the destination view; Z from it, C cleared (R557). -/
def execMov3 (d r : Reg) (s : State) : Result :=
  .next (s.binary (Instr.code (.mov3 d r)) 3 movew d r)

end Sys2Proof.Machine
end

