-- ==== Sys2Proof/Machine/Halt.lean ====
section
/-! DEFINITION. HLT, the only system instruction (47_halt R750 to R752). -/

namespace Sys2Proof.Machine

/-- `HLT`: enters Halted (R750). -/
def execHlt (s : State) : Result :=
  .next (s.halt (Instr.code .hlt))

end Sys2Proof.Machine
end

