-- ==== Sys2Proof/Machine/Jumps.lean ====
section
/-! DEFINITION. The jump instructions (45_jumps R650 to R655). None writes a flag. -/

namespace Sys2Proof.Machine

/-- `JMP`: always taken (R651). -/
def execJmp (addr : U24) (s : State) : Result :=
  .next (s.jumpIf (Instr.code (.jmp addr)) true addr)

/-- `JZ`: taken when Z = 1 (R652). -/
def execJz (addr : U24) (s : State) : Result :=
  .next (s.jumpIf (Instr.code (.jz addr)) s.zero addr)

/-- `JNZ`: taken when Z = 0 (R653). -/
def execJnz (addr : U24) (s : State) : Result :=
  .next (s.jumpIf (Instr.code (.jnz addr)) (!s.zero) addr)

/-- `JC`: taken when C = 1 (R654). -/
def execJc (addr : U24) (s : State) : Result :=
  .next (s.jumpIf (Instr.code (.jc addr)) s.carry addr)

/-- `JNC`: taken when C = 0 (R655). -/
def execJnc (addr : U24) (s : State) : Result :=
  .next (s.jumpIf (Instr.code (.jnc addr)) (!s.carry) addr)

end Sys2Proof.Machine
end

