-- ==== Sys2Proof/Machine/LoadStore.lean ====
section
/-! DEFINITION. The memory instructions LOAD and STORE (44_load_store R600 to R607). -/

namespace Sys2Proof.Machine

/-- `LOAD.1`: memory at the absolute address into the view; Z from the value, C cleared (R601). -/
def execLoad1 (d : Reg) (addr : U24) (s : State) : Result :=
  .next (s.load (Instr.code (.load1 d addr)) 1 d addr)

/-- `LOAD.2`: memory at the absolute address into the view; Z from the value, C cleared (R602). -/
def execLoad2 (d : Reg) (addr : U24) (s : State) : Result :=
  .next (s.load (Instr.code (.load2 d addr)) 2 d addr)

/-- `LOAD.3`: memory at the absolute address into the view; Z from the value, C cleared (R603). -/
def execLoad3 (d : Reg) (addr : U24) (s : State) : Result :=
  .next (s.load (Instr.code (.load3 d addr)) 3 d addr)

/-- `STORE.1`: the view to memory at the absolute address; Z from the value, C cleared (R605). -/
def execStore1 (d : Reg) (addr : U24) (s : State) : Result :=
  .next (s.store (Instr.code (.store1 d addr)) 1 d addr)

/-- `STORE.2`: the view to memory at the absolute address; Z from the value, C cleared (R606). -/
def execStore2 (d : Reg) (addr : U24) (s : State) : Result :=
  .next (s.store (Instr.code (.store2 d addr)) 2 d addr)

/-- `STORE.3`: the view to memory at the absolute address; Z from the value, C cleared (R607). -/
def execStore3 (d : Reg) (addr : U24) (s : State) : Result :=
  .next (s.store (Instr.code (.store3 d addr)) 3 d addr)

end Sys2Proof.Machine
end

