-- ==== Sys2Proof/Machine/Dispatch.lean ====
section
/-! DEFINITION. The execute phase: one arm per operation of the opcode map, each its own meaning. -/

namespace Sys2Proof.Machine

def exec (i : Instr) (s : State) : Host.Outcome State Fault Refusal :=
  match i with
  | .add1 d r => Sys2Proof.Machine.execAdd1 d r s
  | .add2 d r => Sys2Proof.Machine.execAdd2 d r s
  | .add3 d r => Sys2Proof.Machine.execAdd3 d r s
  | .sub1 d r => Sys2Proof.Machine.execSub1 d r s
  | .sub2 d r => Sys2Proof.Machine.execSub2 d r s
  | .sub3 d r => Sys2Proof.Machine.execSub3 d r s
  | .inc1 r => Sys2Proof.Machine.execInc1 r s
  | .inc2 r => Sys2Proof.Machine.execInc2 r s
  | .inc3 r => Sys2Proof.Machine.execInc3 r s
  | .dec1 r => Sys2Proof.Machine.execDec1 r s
  | .dec2 r => Sys2Proof.Machine.execDec2 r s
  | .dec3 r => Sys2Proof.Machine.execDec3 r s
  | .addi1 d imm => Sys2Proof.Machine.execAddi1 d imm s
  | .addi2 d imm => Sys2Proof.Machine.execAddi2 d imm s
  | .addi3 d imm => Sys2Proof.Machine.execAddi3 d imm s
  | .and1 d r => Sys2Proof.Machine.execAnd1 d r s
  | .and2 d r => Sys2Proof.Machine.execAnd2 d r s
  | .and3 d r => Sys2Proof.Machine.execAnd3 d r s
  | .or1 d r => Sys2Proof.Machine.execOr1 d r s
  | .or2 d r => Sys2Proof.Machine.execOr2 d r s
  | .or3 d r => Sys2Proof.Machine.execOr3 d r s
  | .xor1 d r => Sys2Proof.Machine.execXor1 d r s
  | .xor2 d r => Sys2Proof.Machine.execXor2 d r s
  | .xor3 d r => Sys2Proof.Machine.execXor3 d r s
  | .not1 r => Sys2Proof.Machine.execNot1 r s
  | .not2 r => Sys2Proof.Machine.execNot2 r s
  | .not3 r => Sys2Proof.Machine.execNot3 r s
  | .cmp1 d r => Sys2Proof.Machine.execCmp1 d r s
  | .cmp2 d r => Sys2Proof.Machine.execCmp2 d r s
  | .cmp3 d r => Sys2Proof.Machine.execCmp3 d r s
  | .tst1 d r => Sys2Proof.Machine.execTst1 d r s
  | .tst2 d r => Sys2Proof.Machine.execTst2 d r s
  | .tst3 d r => Sys2Proof.Machine.execTst3 d r s
  | .mov1 d r => Sys2Proof.Machine.execMov1 d r s
  | .mov2 d r => Sys2Proof.Machine.execMov2 d r s
  | .mov3 d r => Sys2Proof.Machine.execMov3 d r s
  | .loadi1 d imm => Sys2Proof.Machine.execLoadi1 d imm s
  | .loadi2 d imm => Sys2Proof.Machine.execLoadi2 d imm s
  | .loadi3 d imm => Sys2Proof.Machine.execLoadi3 d imm s
  | .load1 d addr => Sys2Proof.Machine.execLoad1 d addr s
  | .load2 d addr => Sys2Proof.Machine.execLoad2 d addr s
  | .load3 d addr => Sys2Proof.Machine.execLoad3 d addr s
  | .store1 d addr => Sys2Proof.Machine.execStore1 d addr s
  | .store2 d addr => Sys2Proof.Machine.execStore2 d addr s
  | .store3 d addr => Sys2Proof.Machine.execStore3 d addr s
  | .push1 r => Sys2Proof.Machine.execPush1 r s
  | .push2 r => Sys2Proof.Machine.execPush2 r s
  | .push3 r => Sys2Proof.Machine.execPush3 r s
  | .pop1 r => Sys2Proof.Machine.execPop1 r s
  | .pop2 r => Sys2Proof.Machine.execPop2 r s
  | .pop3 r => Sys2Proof.Machine.execPop3 r s
  | .jmp addr => Sys2Proof.Machine.execJmp addr s
  | .jz addr => Sys2Proof.Machine.execJz addr s
  | .jnz addr => Sys2Proof.Machine.execJnz addr s
  | .jc addr => Sys2Proof.Machine.execJc addr s
  | .jnc addr => Sys2Proof.Machine.execJnc addr s
  | .jsr addr => Sys2Proof.Machine.execJsr addr s
  | .rts => Sys2Proof.Machine.execRts s
  | .hlt => Sys2Proof.Machine.execHlt s

end Sys2Proof.Machine
end

