-- ==== Sys2Proof/Machine/Fetch.lean ====
section
/-! DEFINITION. The fetch and decode part of the step (40_datapath R400), with its checks in the order of
60_exceptions R806. -/

namespace Sys2Proof.Machine

/-- What a fetch or decode check raises: the fields of the fault record besides `kind` and `pc` (R802, R803). -/
structure Trap where
  reason : FaultReason
  code : Option Code
  addr : Option U24
deriving DecidableEq, Repr

/-- The opcode word at `pc`, little-endian (R400, 30_encoding R300). -/
def State.opcodeAt (s : State) : Code := BitVec.ofNat 16 (leNat (s.readBytes s.pc 2))

/-- The address of the first operand byte (30_encoding R300). -/
def State.operandPc (s : State) : U24 := add24 s.pc (u24 2)

/-- The reason an operand error is recorded under (60_exceptions R803, R805). -/
def operandReason : OperandError → FaultReason
  | .missing => .truncated
  | .packing => .packing
  | .register => .register

/-- Fetch and decode one instruction at `pc`, or say which check raised (40_datapath R400). -/
def State.fetch (s : State) : Except Trap Instr :=
  if !s.inMem s.pc 2 then .error ⟨.fetch, none, s.firstBad s.pc 2⟩
  else match lookup s.opcodeAt with
    | none => .error ⟨.unknown, some s.opcodeAt, none⟩
    | some row =>
      if !s.inMem s.operandPc (operandCount s.opcodeAt) then
        .error ⟨.truncated, some s.opcodeAt, s.firstBad s.operandPc (operandCount s.opcodeAt)⟩
      else match decodeOperands row.shape (s.readBytes s.operandPc (operandCount s.opcodeAt)) with
        | .ok i => .ok i
        | .error e => .error ⟨operandReason e, some s.opcodeAt, none⟩

/-- Taking the fault of a fetch or decode check (60_exceptions R808). -/
def State.takeTrap (s : State) (t : Trap) : State := s.raise t.reason t.code t.addr

/-- Write bytes at `a`, `a + 1`, ... where the address is backed; an unbacked byte is left out. -/
def State.pokeBytes (s : State) (a : U24) : List Byte → State
  | [] => s
  | v :: vs =>
    State.pokeBytes (if s.backed a then { s with mem := s.mem.write a.toNat v } else s) (add24 a 1#24) vs

end Sys2Proof.Machine
end

