-- ==== Sys2Proof/Machine/Cycle.lean ====
section
/-! DEFINITION. The fetch, decode and execute cycle of 40_datapath R400. -/

namespace Sys2Proof.Machine

/-- The cycle in a Running engine: fetch, decode, execute, or take the fault of the first check that fails (R400). -/
def State.cycle (s : State) : Result :=
  match s.fetch with
  | .ok i => exec i s
  | .error t => .next (s.takeTrap t)

/-- The host's `step()`: in Idle the engine first enters Running, then executes one instruction; in Halted and
Faulted no step is enabled and the state stays as it is (10_state R111, 70_reset R910, log entries 3 and 4). -/
def State.hostStep (s : State) : Result := if s.enabled then s.enter.cycle else .next s

end Sys2Proof.Machine
end

