-- ==== Sys2Proof/Machine/Step.lean ====
section
/-! DEFINITION. One step of the machine: the host's `step()` (70_reset R910) over the cycle of 40_datapath R400. -/

namespace Sys2Proof.Machine

/-- One step, `State.hostStep`. -/
def step (s : State) : Host.Outcome State Fault Refusal := s.hostStep

/-- The state with an instruction of a table word stored at `pc`, where an enabled step fetches it (log entry 6). -/
def State.withFetchWord (s : State) (nbits w : Nat) : State := s.pokeBytes s.pc (tableWordBytes nbits w)

end Sys2Proof.Machine
end

