-- ==== Sys2Proof/Machine/Assembler.lean ====
section
/-! DEFINITION. The assembler: source syntax, two passes and byte emission (30_encoding R319 to R334). Source text
is a list of characters (log entry 10). -/

namespace Sys2Proof.Asm

/-- Source text. -/
abbrev Text := List Char

/-- Whitespace: the six ASCII white-space characters (log entry 10). -/
def isSpace (c : Char) : Bool := c == ' ' || (9 ≤ c.toNat && c.toNat ≤ 13)

/-- Cut a text at every character that `sep` marks, dropping those characters. -/
def splitBy (sep : Char → Bool) : Text → List Text
  | [] => [[]]
  | c :: cs =>
    if sep c then [] :: splitBy sep cs
    else match splitBy sep cs with
      | [] => [[c]]
      | part :: parts => (c :: part) :: parts

/-- Remove leading and trailing whitespace (R321). -/
def trim (t : Text) : Text := ((t.dropWhile isSpace).reverse.dropWhile isSpace).reverse

/-- The lines that remain after comments, outer whitespace and empty lines are gone, each with its number in the
source, counted from 1 (R321). -/
def sourceLines (src : Text) : List (Text × Nat) :=
  (((splitBy (· == '\n') src).map (fun l => trim (l.takeWhile (· != ';')))).zipIdx 1).filter
    (fun l => !l.1.isEmpty)

/-- Tokens: maximal runs of characters that are neither whitespace nor commas (R323). -/
def tokens (line : Text) : List Text :=
  (splitBy (fun c => isSpace c || c == ',') line).filter (fun t => !t.isEmpty)

/-- Whether a token names a row, case-insensitively: `NAME.w` for a width family, where no suffix means width 1,
and `NAME` alone for an operation with no width (R324). -/
def namesRow (token : Text) (row : OpRow) : Bool :=
  let t := token.map Char.toUpper
  match row.shape.width with
  | 0 => t == row.name.toList
  | w => t == row.name.toList ++ ['.', Char.ofNat (48 + w)] || (w == 1 && t == row.name.toList)

/-- The row a mnemonic token names (R324). -/
def parseMnemonic (token : Text) : Option OpRow := opcodeMap.find? (namesRow token)

/-- Register tokens are `R0` to `R8`, case-insensitive (R326). -/
def registerToken : Text → Option Reg
  | [c, d] => if (c == 'R' || c == 'r') && '0' ≤ d && d ≤ '8' then some (BitVec.ofNat 4 (d.toNat - 48)) else none
  | _ => none

/-- A register operand of an operation of width `w`; an index that fails R308 is a ParseError (R326). -/
def parseReg (w : Nat) (token : Text) : Option Reg :=
  match registerToken token with
  | some r => if viewOk w r then some r else none
  | none => none

/-- Numeric literals: decimal digits, or `0x` or `0X` and hexadecimal digits (R327). -/
def literal : Text → Option Nat
  | '0' :: 'x' :: hex => digitsNat 16 hexDigit hex
  | '0' :: 'X' :: hex => digitsNat 16 hexDigit hex
  | t => digitsNat 10 decDigit t

/-- An immediate of width `w`: a literal below `2^(8w)`, never truncated (R327). -/
def parseImm (w : Nat) (token : Text) : Option (Val w) :=
  match literal token with
  | some n => if n < 2 ^ (8 * w) then some (BitVec.ofNat (8 * w) n) else none
  | none => none

/-- Whether a token starts with a decimal digit (R327, R328). -/
def startsWithDigit : Text → Bool
  | c :: _ => (decDigit c).isSome
  | [] => false

/-- An address operand: a literal below 2^24 or a label reference (R325, R327, R328). -/
inductive Target where
  | addr (a : U24)
  | label (name : Text)
deriving DecidableEq, Repr

/-- An address operand; a register token, a literal out of range or a token that starts with a digit and is no
literal is a ParseError (R325, R327, R328). -/
def parseTarget (token : Text) : Option Target :=
  if (registerToken token).isSome then none
  else match literal token with
    | some n => if n < 2 ^ 24 then some (.addr (u24 n)) else none
    | none => if startsWithDigit token then none else some (.label token)

/-- A parsed instruction: resolved, or awaiting a label's address (R319, R329). -/
inductive AsmInstr where
  | resolved (i : Instr)
  | awaiting (label : Text) (mk : U24 → Instr)

/-- Put a target into an instruction that takes an address. -/
def withTarget (mk : U24 → Instr) : Target → AsmInstr
  | .addr a => .resolved (mk a)
  | .label name => .awaiting name mk

/-- The operand signatures: the number and the kind of operands must fit the format (R323, R325). -/
def parseOperands : Shape → List Text → Option AsmInstr
  | .z i, [] => some (.resolved i)
  | .r w mk, [t] => (parseReg w t).map (fun r => .resolved (mk r))
  | .rr w mk, [t, u] =>
    match parseReg w t, parseReg w u with
    | some d, some s => some (.resolved (mk d s))
    | _, _ => none
  | .ri w mk, [t, u] =>
    match parseReg w t, parseImm w u with
    | some d, some imm => some (.resolved (mk d imm))
    | _, _ => none
  | .ra w mk, [t, u] =>
    match parseReg w t, parseTarget u with
    | some d, some a => some (withTarget (mk d) a)
    | _, _ => none
  | .a mk, [t] => (parseTarget t).map (withTarget mk)
  | _, _ => none

/-- What a line of R321 holds: a label definition, or an instruction with its row of the opcode map. -/
inductive Item where
  | label (name : Text)
  | instr (row : OpRow) (i : AsmInstr)

/-- A legal label name (R328). -/
def legalLabel (name : Text) : Bool :=
  !name.isEmpty && name.all (fun c => !isSpace c && c != ',' && c != ';' && c != ':') &&
    !startsWithDigit name && (registerToken name).isNone

/-- Parse a line; `none` is a ParseError (R322 to R328). A line that ends in `:` defines a label. -/
def parseItem (line : Text) : Option Item :=
  if line.getLast? = some ':' then
    let name := trim line.dropLast
    if legalLabel name then some (.label name) else none
  else match tokens line with
    | [] => none
    | m :: operands =>
      match parseMnemonic m with
      | none => none
      | some row => (parseOperands row.shape operands).map (.instr row)

/-- Assembler errors (R331). -/
inductive AsmError where
  /-- The line, by its number in the source, matches no grammar. -/
  | parseError (line : Nat)
  | unknownLabel (name : Text)
  | duplicateLabel (name : Text)
  | programTooLarge
deriving DecidableEq, Repr

/-- The label map of pass 1. -/
abbrev Labels := List (Text × U24)

/-- The address a label is bound to. -/
def Labels.find (labels : Labels) (name : Text) : Option U24 := (labels.lookup name)

/-- Pass 1: bind each label to the current offset, advance by each instruction's length; answers the label map and
the size of the program. A ParseError is skipped when lenient (R329, R331, R332). -/
def pass1 (lenient : Bool) : List (Text × Nat) → Nat → Labels → Except AsmError (Labels × Nat)
  | [], offset, labels => .ok (labels, offset)
  | (line, n) :: rest, offset, labels =>
    match parseItem line with
    | none => if lenient then pass1 lenient rest offset labels else .error (.parseError n)
    | some (.label name) =>
      if (labels.find name).isSome then .error (.duplicateLabel name)
      else pass1 lenient rest offset (labels ++ [(name, u24 offset)])
    | some (.instr row _) => pass1 lenient rest (offset + codeLength row.code) labels

/-- Replace a label reference by its address; an absent name is never resolved to a sentinel (R330). -/
def AsmInstr.resolve (labels : Labels) : AsmInstr → Except AsmError Instr
  | .resolved i => .ok i
  | .awaiting name mk =>
    match labels.find name with
    | some a => .ok (mk a)
    | none => .error (.unknownLabel name)

/-- The encoder on a parsed instruction: with an unresolved label it produces no bytes (R319). -/
def encodeAsm : AsmInstr → Option (List Byte)
  | .resolved i => some (encode i)
  | .awaiting _ _ => none

/-- Pass 2: resolve and encode each instruction, in line order; the label map is not changed (R330, R332). -/
def pass2 (lenient : Bool) (labels : Labels) : List (Text × Nat) → Except AsmError (List Byte)
  | [] => .ok []
  | (line, n) :: rest =>
    match parseItem line with
    | none => if lenient then pass2 lenient labels rest else .error (.parseError n)
    | some (.label _) => pass2 lenient labels rest
    | some (.instr _ i) =>
      match i.resolve labels with
      | .error e => .error e
      | .ok instr =>
        match pass2 lenient labels rest with
        | .error e => .error e
        | .ok bytes => .ok (encode instr ++ bytes)

/-- The assembler: pass 1, the size limit of 2^24 bytes, pass 2. Any error aborts with no output (R329 to R333). -/
def assemble (lenient : Bool) (src : Text) : Except AsmError (List Byte) :=
  match pass1 lenient (sourceLines src) 0 [] with
  | .error e => .error e
  | .ok (labels, size) =>
    if 2 ^ 24 < size then .error .programTooLarge
    else pass2 lenient labels (sourceLines src)

/-- The assembler under the parameters of 00_scope R10. -/
def assembleWith (c : Config) (src : Text) : Except AsmError (List Byte) := assemble c.asmLenient src

end Sys2Proof.Asm
end

