-- ==== Sys2Proof/Machine/HostInterface.lean ====
section
/-! DEFINITION. The host's operations (70_reset R900, R903, R910) and the run loop (40_datapath R403). The host's
`step()` is `State.hostStep`; the operations here are the others. -/

namespace Sys2Proof.Machine

/-- `reset()`, enabled in any state: the reset values of 10_state R116; memory is not changed (R900). -/
def State.hostReset (s : State) : State := { State.create s.cfg with mem := s.mem }

/-- `load(bytes, at)`: in Idle only, and only if every byte would be backed; `none` is the refusal, with no write
(R903, R904, R910, log entry 14). -/
def State.hostLoad (s : State) (bytes : List Byte) (start : U24) : Option State :=
  if s.engine = .idle ∧ bytes.length ≤ s.cfg.memSize.1 ∧ s.inMem start bytes.length = true then
    some { s with mem := s.mem.writeBytes start bytes }
  else none

/-- What a run has come to so far (10_state R111, 60_exceptions R810). -/
inductive RunOutcome where
  /-- Idle or Running: no outcome yet. -/
  | unfinished
  /-- Halted: the run ended without error. -/
  | ok
  /-- Faulted: the fault record. -/
  | fault (r : FaultRecord)
deriving DecidableEq, Repr

/-- The outcome a state records (10_state R111, R112). -/
def State.outcome (s : State) : RunOutcome :=
  match s.engine, s.fault with
  | .halted, _ => .ok
  | .faulted, some r => .fault r
  | _, _ => .unfinished

/-- The run loop, cut off after `cap` steps: a step while the engine is Running (40_datapath R403, 70_reset R908,
log entry 13). -/
def runSteps : Nat → State → State
  | 0, s => s
  | cap + 1, s =>
    if s.engine = .running then
      match s.hostStep with
      | .next t => runSteps cap t
      | _ => s
    else s

/-- `run()` under a host's cap on the number of steps: from Idle it enters Running and loops; in any other state it
changes nothing. It returns the outcome (R111, R403, R910). -/
def State.hostRun (cap : Nat) (s : State) : State × RunOutcome :=
  if s.engine = .idle then
    let t := runSteps cap s.enter
    (t, t.outcome)
  else (s, s.outcome)

/-- `icount()` (R910). -/
def State.hostIcount (s : State) : Nat := s.icount

/-- `readMem(a, n)`: `MemRead(a, n)`, or refused if a byte is unbacked (R910). DESIGN CHOICE for n outside {1, 2, 3},
where R205 gives no `MemRead` and R910 no bound: the same sum over n bytes, so n = 0 answers the empty value and is never
refused (log entry 21). -/
def State.hostReadMem (s : State) (a : U24) (n : Nat) : Option (Val n) :=
  if s.inMem a n then some (s.memRead a n) else none

/-- What `readState()` returns (R910). -/
structure HostView where
  pc : U24
  sp : U24
  regs : Vector Byte 9
  /-- FLAGS (10_state R109). -/
  flags : Byte
  engine : EngineState
  fault : Option FaultRecord
deriving DecidableEq, Repr

/-- `readState()` (R910). -/
def State.hostReadState (s : State) : HostView where
  pc := s.pc
  sp := s.sp
  regs := s.regs
  flags := State.flagsByte s
  engine := s.engine
  fault := s.fault

/-- The number a host interface reports for a fault kind (60_exceptions R803). -/
def FaultKind.number : FaultKind → Nat
  | .invalidOpCode => 1
  | .invalidInstruction => 2
  | .memoryFault => 3

end Sys2Proof.Machine
end

