-- ==== Sys2Proof/Safety.lean ====
section
/-! DEFINITION. The terms claims use: the invariant of a well-formed machine, what a fault leaves, and the frames of
instructions that complete. -/

namespace Sys2Proof.Machine

/-- The legal parameters of 00_scope R10: `MEM_INIT` is a byte for addresses below `MEM_SIZE`, in canonical form. -/
abbrev ConfigOk (c : Config) : Prop := c.memInit.wf ∧ ∀ e ∈ c.memInit, e.1 < c.memSize.1

/-- A fault record with the fields the table of 60_exceptions R803 gives its reason: the kind follows the reason,
`code` is none exactly for a Fetch fault, `addr` is none exactly for Unknown, Packing and Register. -/
abbrev RecordOk (r : FaultRecord) : Prop :=
  r.kind = r.reason.kind ∧ (r.code = none ↔ r.reason = .fetch) ∧
    (r.addr = none ↔ r.reason = .unknown ∨ r.reason = .packing ∨ r.reason = .register)

/-- The fault record is present exactly in Faulted; then it fits R803 and its `pc` is the machine's, the first byte
of the faulting instruction (10_state R112, 60_exceptions R801). -/
abbrev FaultOk (s : State) : Prop :=
  match s.fault with
  | none => s.engine ≠ .faulted
  | some r => s.engine = .faulted ∧ RecordOk r ∧ r.pc = s.pc

/-- The invariant every step keeps: memory is canonical and lists backed addresses only (20_memory R201), the
instruction counter has `ICOUNT_BITS` bits (10_state R113), the fault record goes with Faulted (R112). -/
abbrev Inv (s : State) : Prop :=
  s.mem.wf ∧ (∀ e ∈ s.mem, e.1 < s.cfg.memSize.1) ∧ s.icount < 2 ^ s.cfg.icountBits ∧ FaultOk s

/-- `t` is `s` after taking a fault: the engine is Faulted, the record is written, and every register, flag, `sp`,
`pc`, `icount`, parameter and byte of memory is as before (60_exceptions R801, R808). -/
structure TakesFault (s t : State) (kind : FaultKind) (reason : FaultReason) (code : Option Code)
    (addr : Option U24) : Prop where
  engine : t.engine = .faulted
  record : t.fault = some { kind := kind, pc := s.pc, code := code, addr := addr, reason := reason }
  regs : t.regs = s.regs
  pc : t.pc = s.pc
  sp : t.sp = s.sp
  zero : t.zero = s.zero
  carry : t.carry = s.carry
  icount : t.icount = s.icount
  cfg : t.cfg = s.cfg
  mem : t.mem = s.mem

/-- Every register cell outside `[i, i + w)` is as before. -/
def CellsKept (s t : State) (i w : Nat) : Prop := ∀ k, k < numCells → k < i ∨ i + w ≤ k → t.cell k = s.cell k

/-- Every register cell is as before. -/
def AllCellsKept (s t : State) : Prop := ∀ k, k < numCells → t.cell k = s.cell k

/-- Every byte of memory reads as before. -/
def MemKept (s t : State) : Prop := ∀ a : U24, t.byteAt a = s.byteAt a

/-- Every byte of memory outside the n bytes of an access at `a` reads as before. -/
def MemKeptOutside (s t : State) (a : U24) (n : Nat) : Prop :=
  ∀ b : U24, (∀ k, k < n → b ≠ a + BitVec.ofNat 24 k) → t.byteAt b = s.byteAt b

/-- Both flags are as before. -/
def FlagsKept (s t : State) : Prop := t.zero = s.zero ∧ t.carry = s.carry

/-- The flags after a value is computed or moved: ZERO from the value, CARRY as given (10_state R110). -/
def FlagsFrom (t : State) (value : Nat) (carry : Prop) : Prop :=
  (t.zero = true ↔ value = 0) ∧ (t.carry = true ↔ carry)

/-- What every instruction that completes does besides its own effect: `pc`, one more on the instruction counter,
and the engine state, fault record and parameters as before (40_datapath R400, 10_state R113). -/
structure Retires (s t : State) (npc : U24) : Prop where
  pc : t.pc = npc
  icount : t.icount = (s.icount + 1) % 2 ^ s.cfg.icountBits
  engine : t.engine = s.engine
  fault : t.fault = s.fault
  cfg : t.cfg = s.cfg

/-- An ALU or move instruction of width `w` and length `len` answers a next state: the view at `d` holds `value`,
the flags follow, and nothing else but `pc` and `icount` changes. -/
def WritesView (o : Result) (s : State) (w len : Nat) (d : Reg) (value : Nat) (carry : Prop) : Prop :=
  ∃ t, o = .next t ∧ (t.reg d w).toNat = value ∧ FlagsFrom t value carry ∧ CellsKept s t d.toNat w ∧
    t.sp = s.sp ∧ MemKept s t ∧ Retires s t (s.pc + BitVec.ofNat 24 len)

/-- A compare or test of length 3 answers a next state: the flags follow from `value` and `carry`, and no register
changes. -/
def WritesFlagsOnly (o : Result) (s : State) (value : Nat) (carry : Prop) : Prop :=
  ∃ t, o = .next t ∧ FlagsFrom t value carry ∧ AllCellsKept s t ∧ t.sp = s.sp ∧ MemKept s t ∧
    Retires s t (s.pc + 3#24)

/-- A store of width `w` answers a next state: the `w` bytes at `a` hold the stored value, the flags follow, and no
register, `sp` or other byte changes. -/
def StoresView (o : Result) (s : State) (w : Nat) (d : Reg) (a : U24) : Prop :=
  ∃ t, o = .next t ∧ t.memRead a w = s.reg d w ∧ FlagsFrom t (s.reg d w).toNat False ∧ AllCellsKept s t ∧
    t.sp = s.sp ∧ MemKeptOutside s t a w ∧ Retires s t (s.pc + 6#24)

/-- A jump answers a next state in which only `pc` and `icount` differ. -/
def JumpsTo (o : Result) (s : State) (npc : U24) : Prop :=
  ∃ t, o = .next t ∧ AllCellsKept s t ∧ FlagsKept s t ∧ t.sp = s.sp ∧ MemKept s t ∧ Retires s t npc

/-- A push of the n-byte item `v`, with `pc` going to `npc`: `sp` is lowered by n, the item stands at the new `sp`,
and no register, flag or other byte changes (46_call_stack R702). -/
def Pushes (o : Result) (s : State) (n : Nat) (v : Val n) (npc : U24) : Prop :=
  ∃ t, o = .next t ∧ t.sp = s.sp - BitVec.ofNat 24 n ∧ t.memRead (s.sp - BitVec.ofNat 24 n) n = v ∧
    AllCellsKept s t ∧ FlagsKept s t ∧ MemKeptOutside s t (s.sp - BitVec.ofNat 24 n) n ∧ Retires s t npc

/-- POP of width `w`: the view holds the item at the old `sp`, `sp` is raised by `w`, and no flag, other register or
byte changes (46_call_stack R702, R708). -/
def PopsView (o : Result) (s : State) (w : Nat) (r : Reg) : Prop :=
  ∃ t, o = .next t ∧ t.reg r w = s.memRead s.sp w ∧ t.sp = s.sp + BitVec.ofNat 24 w ∧
    CellsKept s t r.toNat w ∧ FlagsKept s t ∧ MemKept s t ∧ Retires s t (s.pc + 3#24)

/-- The result answers a next state that took the given fault. -/
def AnswersFault (o : Result) (s : State) (kind : FaultKind) (reason : FaultReason) (code : Option Code)
    (addr : Option U24) : Prop :=
  ∃ t, o = .next t ∧ TakesFault s t kind reason code addr

/-- The instructions that write no flag (10_state R110, last row and the jumps). -/
def keepsFlags : Instr → Bool
  | .jmp _ | .jz _ | .jnz _ | .jc _ | .jnc _ | .jsr _ | .rts | .hlt => true
  | .push1 _ | .push2 _ | .push3 _ | .pop1 _ | .pop2 _ | .pop3 _ => true
  | _ => false

/-- The instructions that read and write `sp` (10_state R107). -/
def usesStack : Instr → Bool
  | .jsr _ | .rts | .push1 _ | .push2 _ | .push3 _ | .pop1 _ | .pop2 _ | .pop3 _ => true
  | _ => false

/-- The instructions that write memory (20_memory R202). -/
def writesMemory : Instr → Bool
  | .store1 .. | .store2 .. | .store3 .. | .push1 _ | .push2 _ | .push3 _ | .jsr _ => true
  | _ => false

/-- The bytes at `a`, `a + 1`, ... (mod 2^24) are backed and are the given ones. -/
def HoldsAt (s : State) (a : U24) (bs : List Byte) : Prop :=
  s.inMem a bs.length = true ∧ s.readBytes a bs.length = bs

end Sys2Proof.Machine
end

