-- ==== Sys2Proof/Certificates/Slice0/Obligations.lean ====
section
/-! DEFINITION. The statements for the provers. Each follows the numbered rules its entry in OBLIGATIONS.json
cites. -/

open Sys2Proof Sys2Proof.Machine

/-- Creation and reset leave the values of R116. Log entries 2 and 7: that the parameters stand in `State`, at their
defaults in `State.reset`, and that a byte not listed reads as 0x00, at unbacked addresses too, is the model's. -/
def Obligations.ResetLeavesTheStatedValues : Prop :=
  (∀ c : Config, (State.create c).engine = .idle ∧ (State.create c).pc = 0#24 ∧ (State.create c).sp = c.spReset ∧
    (State.create c).zero = false ∧ (State.create c).carry = false ∧
    (∀ k, k < numCells → (State.create c).cell k = 0#8) ∧ (State.create c).icount = 0 ∧
    (State.create c).fault = none ∧ (State.create c).mem = c.memInit) ∧
  (∀ (c : Config) (image : List Byte) (t : State), (State.create c).hostLoad image 0#24 = some t →
    (∀ (k : Nat) (h : k < image.length), t.byteAt (BitVec.ofNat 24 k) = image[k]) ∧
    (∀ a : U24, image.length ≤ a.toNat → t.byteAt a = c.memInit.read a.toNat)) ∧
  (∀ s : State, s.hostReset.engine = .idle ∧ s.hostReset.pc = 0#24 ∧ s.hostReset.sp = s.cfg.spReset ∧
    s.hostReset.zero = false ∧ s.hostReset.carry = false ∧
    (∀ k, k < numCells → s.hostReset.cell k = 0#8) ∧ s.hostReset.icount = 0 ∧
    s.hostReset.fault = none ∧ s.hostReset.mem = s.mem) ∧
  State.reset = State.create Config.standard ∧ State.reset.sp = 0x00FFFF#24 ∧
  (∀ a : U24, State.reset.byteAt a = 0#8)

/-- Reset leaves Halted and Faulted; no other operation does. Log entry 4: that a step there answers the state
unchanged is read from R111. Log entry 7: an unbacked byte reads as 0x00 by the model's choice. Log entry 13: the
cap of a run is the model's. -/
def Obligations.OnlyResetLeavesATerminalState : Prop :=
  (∀ s : State, s.hostReset = { State.create s.cfg with mem := s.mem } ∧ s.hostReset.engine = .idle ∧
    s.hostReset.pc = 0x000000#24 ∧ s.hostReset.sp = s.cfg.spReset ∧ s.hostReset.zero = false ∧
    s.hostReset.carry = false ∧ (∀ k, k < numCells → s.hostReset.cell k = 0#8) ∧ s.hostReset.icount = 0 ∧
    s.hostReset.fault = none ∧ s.hostReset.mem = s.mem) ∧
  (∀ s : State, State.create s.cfg = { s.hostReset with mem := s.cfg.memInit }) ∧
  (∀ a : U24, (State.create Config.standard).byteAt a = 0x00#8) ∧
  (∀ s : State, s.engine = .halted ∨ s.engine = .faulted →
    step s = .next s ∧ (∀ image a, s.hostLoad image a = none) ∧ (∀ cap, (s.hostRun cap).1 = s))

/-- run() and step() move the engine state as R111 says. Log entries 3 and 4: the step from Idle is read from R910,
the step in Halted and Faulted from R111. Log entry 13: the cap of a run and the outcome unfinished are the model's.
-/
def Obligations.EngineStateTransitions : Prop :=
  (∀ (s : State) (cap : Nat), s.engine = .idle →
    s.hostRun cap = (runSteps cap { s with engine := .running }, (runSteps cap { s with engine := .running }).outcome)) ∧
  (∀ s : State, runSteps 0 s = s) ∧
  (∀ (s t : State) (n : Nat), s.engine = .running → step s = .next t → runSteps (n + 1) s = runSteps n t) ∧
  (∀ (s : State) (n : Nat), s.engine ≠ .running → runSteps n s = s) ∧
  (∀ (s : State) (n : Nat), s.engine ≠ .idle → Host.Core.run Sys2Proof.core n s = .next (runSteps n s)) ∧
  (∀ (s : State) (cap : Nat), s.engine ≠ .idle → s.hostRun cap = (s, s.outcome)) ∧
  (∀ s : State, s.engine = .halted → s.outcome = .ok) ∧
  (∀ (s : State) (r : FaultRecord), s.engine = .faulted → s.fault = some r → s.outcome = .fault r) ∧
  (∀ s : State, s.engine = .running → s.outcome = .unfinished) ∧
  (∀ s : State, s.engine = .idle → step s = step { s with engine := .running }) ∧
  (∀ s : State, s.engine = .running → ∃ t, exec .hlt s = .next t ∧ t.engine = .halted) ∧
  (∀ (s : State) (reason : FaultReason) (c : Option Code) (a : Option U24),
    (s.raise reason c a).engine = .faulted ∧
    (s.raise reason c a).outcome = .fault ⟨reason.kind, s.pc, c, a, reason⟩) ∧
  (∀ s : State, s.engine = .halted ∨ s.engine = .faulted → step s = .next s)

/-- A run that ended is not changed by a larger cap. Log entry 13: the cap is the model's. -/
def Obligations.RunDoesNotDependOnTheCap : Prop :=
  ∀ (s : State) (n k : Nat), (s.hostRun n).2 ≠ .unfinished → s.hostRun (n + k) = s.hostRun n

/-- load writes the image in Idle and is refused otherwise. Log entry 14: that an image longer than `MEM_SIZE` is
refused at any start address is read from R903. -/
def Obligations.LoadWritesTheImageInIdleOnly : Prop :=
  ∀ (s : State) (image : List Byte) (a : U24),
    ((s.hostLoad image a).isSome = true ↔
      s.engine = .idle ∧ image.length ≤ s.cfg.memSize.1 ∧ s.inMem a image.length = true) ∧
    (∀ t, s.hostLoad image a = some t →
      (∀ (k : Nat) (h : k < image.length), t.byteAt (a + BitVec.ofNat 24 k) = image[k]) ∧
      MemKeptOutside s t a image.length ∧ t = { s with mem := t.mem })

/-- FLAGS has Z in bit 0, C in bit 1 and zeros above. Log entry 16. -/
def Obligations.FlagsByteLayout : Prop :=
  ∀ s : State, (State.flagsByte s).getLsbD 0 = s.zero ∧ (State.flagsByte s).getLsbD 1 = s.carry ∧
    (State.flagsByte s).extractLsb' 2 6 = 0#6 ∧ s.hostReadState.flags = State.flagsByte s

/-- readMem returns MemRead where backed and is refused elsewhere. Log entry 21: for n outside {1, 2, 3}, where R205
gives no `MemRead`, the answer is the model's choice. -/
def Obligations.ReadMemReturnsBackedBytesOnly : Prop :=
  ∀ (s : State) (a : U24) (n : Nat),
    (s.inMem a n = true → ∃ v, s.hostReadMem a n = some v ∧
      v.toNat = ∑ k ∈ Finset.range n, (s.byteAt (a + BitVec.ofNat 24 k)).toNat * 2 ^ (8 * k)) ∧
    (s.inMem a n = false → s.hostReadMem a n = none)

/-- reg and setreg are the little-endian views of R103. -/
def Obligations.RegisterViewsAreLittleEndian : Prop :=
  ∀ (s : State) (r : Reg) (w : Nat), viewOk w r = true →
    (s.reg r w).toNat = ∑ k ∈ Finset.range w, (s.cell (r.toNat + k)).toNat * 2 ^ (8 * k) ∧
    ∀ v : Val w, (∀ k, k < w → (s.setReg r w v).cell (r.toNat + k) = v.extractLsb' (8 * k) 8) ∧
      CellsKept s (s.setReg r w v) r.toNat w

/-- inMem and firstBad are those of R204. -/
def Obligations.BackedAccessesAndFirstBadAddress : Prop :=
  ∀ (s : State) (a : U24) (n : Nat),
    (s.inMem a n = true ↔ ∀ k, k < n → (a.toNat + k) % 2 ^ 24 < s.cfg.memSize.1) ∧
    (∀ b : U24, s.firstBad a n = some b ↔ ∃ k, k < n ∧ b.toNat = (a.toNat + k) % 2 ^ 24 ∧
      s.cfg.memSize.1 ≤ b.toNat ∧ ∀ j, j < k → (a.toNat + j) % 2 ^ 24 < s.cfg.memSize.1) ∧
    (s.firstBad a n = none ↔ s.inMem a n = true) ∧ s.inMem a 0 = true

/-- MemWrite sets its bytes and no other, and is read back. Log entry 7: the canonical form is the model's. -/
def Obligations.MemWriteSetsExactlyItsBytes : Prop :=
  ∀ (s : State) (a : U24) (n : Nat) (v : Val n), n ≤ 3 →
    (∀ k, k < n → (s.memWrite a n v).byteAt (a + BitVec.ofNat 24 k) = v.extractLsb' (8 * k) 8) ∧
    MemKeptOutside s (s.memWrite a n v) a n ∧ (s.memWrite a n v).memRead a n = v ∧
    (s.mem.wf → (s.memWrite a n v).mem.wf) ∧ s.memWrite a n v = { s with mem := (s.memWrite a n v).mem }

/-- A narrow load inside a stored view sees the matching cells. The spec derives it: R208 rests on R205, R206 and
R103. -/
def Obligations.StoreThenNarrowLoadSeesItsBytes : Prop :=
  (∀ (s : State) (d e : Reg) (a : U24) (k : Nat), viewOk 1 d = true → viewOk 1 e = true → s.inMem a 1 = true →
    k < 1 → ∃ t u, exec (.store1 d a) s = .next t ∧ exec (.load1 e (a + BitVec.ofNat 24 k)) t = .next u ∧
      u.cell e.toNat = s.cell (d.toNat + k)) ∧
  (∀ (s : State) (d e : Reg) (a : U24) (k : Nat), viewOk 2 d = true → viewOk 1 e = true → s.inMem a 2 = true →
    k < 2 → ∃ t u, exec (.store2 d a) s = .next t ∧ exec (.load1 e (a + BitVec.ofNat 24 k)) t = .next u ∧
      u.cell e.toNat = s.cell (d.toNat + k)) ∧
  (∀ (s : State) (d e : Reg) (a : U24) (k : Nat), viewOk 3 d = true → viewOk 1 e = true → s.inMem a 3 = true →
    k < 3 → ∃ t u, exec (.store3 d a) s = .next t ∧ exec (.load1 e (a + BitVec.ofNat 24 k)) t = .next u ∧
      u.cell e.toNat = s.cell (d.toNat + k)) ∧
  (∀ (s : State) (d e : Reg) (a : U24) (k : Nat), viewOk 3 d = true → viewOk 2 e = true → s.inMem a 3 = true →
    k < 2 → ∃ t u, exec (.store3 d a) s = .next t ∧ exec (.load2 e (a + BitVec.ofNat 24 k)) t = .next u ∧
      u.cell e.toNat = s.cell (d.toNat + k) ∧ u.cell (e.toNat + 1) = s.cell (d.toNat + k + 1))

/-- addw, subw, incw, decw and the bitwise functions are those of R410 to R413. The clause on incw is one the spec
derives: R412 marks it as coming from R410 with b = 1. -/
def Obligations.WidthArithmeticAndCarry : Prop :=
  ∀ w, 1 ≤ w → w ≤ 3 → ∀ a b : Val w,
    ((addw a b).1.toNat = (a.toNat + b.toNat) % 2 ^ (8 * w) ∧
     ((addw a b).2 = true ↔ 2 ^ (8 * w) ≤ a.toNat + b.toNat) ∧
     (addw a b).2 = (a.toNat + b.toNat).testBit (8 * w)) ∧
    ((b.toNat ≤ a.toNat → (subw a b).1.toNat = a.toNat - b.toNat ∧ (subw a b).2 = false) ∧
     (a.toNat < b.toNat → (subw a b).1.toNat = 2 ^ (8 * w) - (b.toNat - a.toNat) ∧ (subw a b).2 = true) ∧
     (a = b → (subw a b).1 = 0#(8 * w) ∧ (subw a b).2 = false)) ∧
    (incw a = addw a 1#(8 * w) ∧ ((incw a).2 = true ↔ a.toNat = 2 ^ (8 * w) - 1) ∧
     ((incw a).2 = true → (incw a).1.toNat = 0)) ∧
    ((decw a).1.toNat = (a.toNat + (2 ^ (8 * w) - 1)) % 2 ^ (8 * w) ∧ ((decw a).2 = true ↔ a.toNat = 0) ∧
     ((decw a).2 = true → (decw a).1.toNat = 2 ^ (8 * w) - 1)) ∧
    ((andw a b).1.toNat = a.toNat &&& b.toNat ∧ (orw a b).1.toNat = a.toNat ||| b.toNat ∧
     (xorw a b).1.toNat = a.toNat ^^^ b.toNat ∧ (notw a).1.toNat = (2 ^ (8 * w) - 1) ^^^ a.toNat ∧
     (andw a b).2 = false ∧ (orw a b).2 = false ∧ (xorw a b).2 = false ∧ (notw a).2 = false ∧
     (andw a b).1.toNat < 2 ^ (8 * w) ∧ (orw a b).1.toNat < 2 ^ (8 * w) ∧ (xorw a b).1.toNat < 2 ^ (8 * w) ∧
     (notw a).1.toNat < 2 ^ (8 * w))

/-- At width 3 the width-w functions are the U24 operations. The spec derives it: R415 rests on R404 to R406 and
R410 to R413. -/
def Obligations.WidthThreeAgreesWithU24 : Prop :=
  ∀ a b : Val 3, (addw a b).1 = add24 a b ∧ (subw a b).1 = sub24 a b ∧ (andw a b).1 = and24 a b ∧
    (orw a b).1 = or24 a b ∧ (xorw a b).1 = xor24 a b ∧ (notw a).1 = not24 a

/-- The U24 unit wraps, masks, orders, shifts and parses as R404 to R409 say. Log entry 20: that hexadecimal digits
of both cases are read is the model's choice. -/
def Obligations.U24WrapsAndMasks : Prop :=
  (∀ v : Nat, (u24 v).toNat = v % 2 ^ 24 ∧ (u24 v).toNat = v &&& 0x00FFFFFF ∧ (u24 v).toNat < 2 ^ 24) ∧
  (∀ a b : U24, (add24 a b).toNat = (a.toNat + b.toNat) % 2 ^ 24 ∧
    (sub24 a b).toNat = (a.toNat + 2 ^ 24 - b.toNat) % 2 ^ 24) ∧
  (∀ a b : U24, (and24 a b).toNat = a.toNat &&& b.toNat ∧ (or24 a b).toNat = a.toNat ||| b.toNat ∧
    (xor24 a b).toNat = a.toNat ^^^ b.toNat ∧ (not24 a).toNat = 0xFFFFFF ^^^ a.toNat ∧ not24 0#24 = 0xFFFFFF#24) ∧
  (∀ a b : U24, (lt24 a b = true ↔ a.toNat < b.toNat) ∧ (a = b ↔ a.toNat = b.toNat)) ∧
  (∀ (a : U24) (n : Nat), (shl24 a n).toNat = (a.toNat * 2 ^ n) % 2 ^ 24 ∧ (shr24 a n).toNat = a.toNat / 2 ^ n ∧
    (24 ≤ n → shl24 a n = 0#24 ∧ shr24 a n = 0#24)) ∧
  add24 0xFFFFFF#24 1#24 = 0#24 ∧ sub24 0#24 1#24 = 0xFFFFFF#24 ∧
  (∀ t : List Char, t ≠ [] → (∀ c ∈ t, '0' ≤ c ∧ c ≤ '9') →
    parse24 t = some (u24 (t.foldl (fun v c => 10 * v + (c.toNat - '0'.toNat)) 0))) ∧
  (∀ t : List Char, t ≠ [] →
    (∀ c ∈ t, ('0' ≤ c ∧ c ≤ '9') ∨ ('A' ≤ c ∧ c ≤ 'F') ∨ ('a' ≤ c ∧ c ≤ 'f')) →
    parse24 ('0' :: 'x' :: t) = some (u24 (t.foldl (fun v c => 16 * v +
      (if c ≤ '9' then c.toNat - '0'.toNat else if c ≤ 'F' then c.toNat - 'A'.toNat + 10
        else c.toNat - 'a'.toNat + 10)) 0)))

/-- ADD.w writes the sum, ZERO and the carry out. -/
def Obligations.AddWritesSumAndCarry : Prop :=
  (∀ (s : State) (d r : Reg), viewOk 1 d = true → viewOk 1 r = true →
    WritesView (exec (.add1 d r) s) s 1 3 d (((s.reg d 1).toNat + (s.reg r 1).toNat) % 2 ^ 8) (2 ^ 8 ≤ (s.reg d 1).toNat + (s.reg r 1).toNat)) ∧
  (∀ (s : State) (d r : Reg), viewOk 2 d = true → viewOk 2 r = true →
    WritesView (exec (.add2 d r) s) s 2 3 d (((s.reg d 2).toNat + (s.reg r 2).toNat) % 2 ^ 16) (2 ^ 16 ≤ (s.reg d 2).toNat + (s.reg r 2).toNat)) ∧
  (∀ (s : State) (d r : Reg), viewOk 3 d = true → viewOk 3 r = true →
    WritesView (exec (.add3 d r) s) s 3 3 d (((s.reg d 3).toNat + (s.reg r 3).toNat) % 2 ^ 24) (2 ^ 24 ≤ (s.reg d 3).toNat + (s.reg r 3).toNat))

/-- SUB.w writes the difference, ZERO and the borrow. -/
def Obligations.SubWritesDifferenceAndBorrow : Prop :=
  (∀ (s : State) (d r : Reg), viewOk 1 d = true → viewOk 1 r = true →
    WritesView (exec (.sub1 d r) s) s 1 3 d (((s.reg d 1).toNat + 2 ^ 8 - (s.reg r 1).toNat) % 2 ^ 8) ((s.reg d 1).toNat < (s.reg r 1).toNat)) ∧
  (∀ (s : State) (d r : Reg), viewOk 2 d = true → viewOk 2 r = true →
    WritesView (exec (.sub2 d r) s) s 2 3 d (((s.reg d 2).toNat + 2 ^ 16 - (s.reg r 2).toNat) % 2 ^ 16) ((s.reg d 2).toNat < (s.reg r 2).toNat)) ∧
  (∀ (s : State) (d r : Reg), viewOk 3 d = true → viewOk 3 r = true →
    WritesView (exec (.sub3 d r) s) s 3 3 d (((s.reg d 3).toNat + 2 ^ 24 - (s.reg r 3).toNat) % 2 ^ 24) ((s.reg d 3).toNat < (s.reg r 3).toNat))

/-- INC.w adds one; CARRY exactly from the all-ones value. -/
def Obligations.IncAddsOneWithCarry : Prop :=
  (∀ (s : State) (r : Reg), viewOk 1 r = true →
    WritesView (exec (.inc1 r) s) s 1 3 r (((s.reg r 1).toNat + 1) % 2 ^ 8) ((s.reg r 1).toNat = 2 ^ 8 - 1)) ∧
  (∀ (s : State) (r : Reg), viewOk 2 r = true →
    WritesView (exec (.inc2 r) s) s 2 3 r (((s.reg r 2).toNat + 1) % 2 ^ 16) ((s.reg r 2).toNat = 2 ^ 16 - 1)) ∧
  (∀ (s : State) (r : Reg), viewOk 3 r = true →
    WritesView (exec (.inc3 r) s) s 3 3 r (((s.reg r 3).toNat + 1) % 2 ^ 24) ((s.reg r 3).toNat = 2 ^ 24 - 1))

/-- DEC.w subtracts one; CARRY exactly from zero. -/
def Obligations.DecSubtractsOneWithBorrow : Prop :=
  (∀ (s : State) (r : Reg), viewOk 1 r = true →
    WritesView (exec (.dec1 r) s) s 1 3 r (((s.reg r 1).toNat + (2 ^ 8 - 1)) % 2 ^ 8) ((s.reg r 1).toNat = 0)) ∧
  (∀ (s : State) (r : Reg), viewOk 2 r = true →
    WritesView (exec (.dec2 r) s) s 2 3 r (((s.reg r 2).toNat + (2 ^ 16 - 1)) % 2 ^ 16) ((s.reg r 2).toNat = 0)) ∧
  (∀ (s : State) (r : Reg), viewOk 3 r = true →
    WritesView (exec (.dec3 r) s) s 3 3 r (((s.reg r 3).toNat + (2 ^ 24 - 1)) % 2 ^ 24) ((s.reg r 3).toNat = 0))

/-- ADDI.w adds its zero-extended immediate. -/
def Obligations.AddiAddsTheImmediate : Prop :=
  (∀ (s : State) (d : Reg) (imm : BitVec 8), viewOk 1 d = true →
    WritesView (exec (.addi1 d imm) s) s 1 4 d (((s.reg d 1).toNat + imm.toNat) % 2 ^ 8) (2 ^ 8 ≤ (s.reg d 1).toNat + imm.toNat)) ∧
  (∀ (s : State) (d : Reg) (imm : BitVec 16), viewOk 2 d = true →
    WritesView (exec (.addi2 d imm) s) s 2 5 d (((s.reg d 2).toNat + imm.toNat) % 2 ^ 16) (2 ^ 16 ≤ (s.reg d 2).toNat + imm.toNat)) ∧
  (∀ (s : State) (d : Reg) (imm : BitVec 24), viewOk 3 d = true →
    WritesView (exec (.addi3 d imm) s) s 3 6 d (((s.reg d 3).toNat + imm.toNat) % 2 ^ 24) (2 ^ 24 ≤ (s.reg d 3).toNat + imm.toNat))

/-- CMP.w compares by subtraction and writes only the flags. -/
def Obligations.CmpWritesOnlyTheFlags : Prop :=
  (∀ (s : State) (d r : Reg), viewOk 1 d = true → viewOk 1 r = true →
    WritesFlagsOnly (exec (.cmp1 d r) s) s (((s.reg d 1).toNat + 2 ^ 8 - (s.reg r 1).toNat) % 2 ^ 8)
      ((s.reg d 1).toNat < (s.reg r 1).toNat) ∧
    ∃ t, exec (.cmp1 d r) s = .next t ∧ (t.zero = true ↔ s.reg d 1 = s.reg r 1)) ∧
  (∀ (s : State) (d r : Reg), viewOk 2 d = true → viewOk 2 r = true →
    WritesFlagsOnly (exec (.cmp2 d r) s) s (((s.reg d 2).toNat + 2 ^ 16 - (s.reg r 2).toNat) % 2 ^ 16)
      ((s.reg d 2).toNat < (s.reg r 2).toNat) ∧
    ∃ t, exec (.cmp2 d r) s = .next t ∧ (t.zero = true ↔ s.reg d 2 = s.reg r 2)) ∧
  (∀ (s : State) (d r : Reg), viewOk 3 d = true → viewOk 3 r = true →
    WritesFlagsOnly (exec (.cmp3 d r) s) s (((s.reg d 3).toNat + 2 ^ 24 - (s.reg r 3).toNat) % 2 ^ 24)
      ((s.reg d 3).toNat < (s.reg r 3).toNat) ∧
    ∃ t, exec (.cmp3 d r) s = .next t ∧ (t.zero = true ↔ s.reg d 3 = s.reg r 3))

/-- AND.w, OR.w and XOR.w write the bitwise result and clear CARRY. -/
def Obligations.LogicWritesResultAndClearsCarry : Prop :=
  (∀ (s : State) (d r : Reg), viewOk 1 d = true → viewOk 1 r = true →
    WritesView (exec (.and1 d r) s) s 1 3 d ((s.reg d 1).toNat &&& (s.reg r 1).toNat) (False)) ∧
  (∀ (s : State) (d r : Reg), viewOk 2 d = true → viewOk 2 r = true →
    WritesView (exec (.and2 d r) s) s 2 3 d ((s.reg d 2).toNat &&& (s.reg r 2).toNat) (False)) ∧
  (∀ (s : State) (d r : Reg), viewOk 3 d = true → viewOk 3 r = true →
    WritesView (exec (.and3 d r) s) s 3 3 d ((s.reg d 3).toNat &&& (s.reg r 3).toNat) (False)) ∧
  (∀ (s : State) (d r : Reg), viewOk 1 d = true → viewOk 1 r = true →
    WritesView (exec (.or1 d r) s) s 1 3 d ((s.reg d 1).toNat ||| (s.reg r 1).toNat) (False)) ∧
  (∀ (s : State) (d r : Reg), viewOk 2 d = true → viewOk 2 r = true →
    WritesView (exec (.or2 d r) s) s 2 3 d ((s.reg d 2).toNat ||| (s.reg r 2).toNat) (False)) ∧
  (∀ (s : State) (d r : Reg), viewOk 3 d = true → viewOk 3 r = true →
    WritesView (exec (.or3 d r) s) s 3 3 d ((s.reg d 3).toNat ||| (s.reg r 3).toNat) (False)) ∧
  (∀ (s : State) (d r : Reg), viewOk 1 d = true → viewOk 1 r = true →
    WritesView (exec (.xor1 d r) s) s 1 3 d ((s.reg d 1).toNat ^^^ (s.reg r 1).toNat) (False)) ∧
  (∀ (s : State) (d r : Reg), viewOk 2 d = true → viewOk 2 r = true →
    WritesView (exec (.xor2 d r) s) s 2 3 d ((s.reg d 2).toNat ^^^ (s.reg r 2).toNat) (False)) ∧
  (∀ (s : State) (d r : Reg), viewOk 3 d = true → viewOk 3 r = true →
    WritesView (exec (.xor3 d r) s) s 3 3 d ((s.reg d 3).toNat ^^^ (s.reg r 3).toNat) (False))

/-- NOT.w complements its view and clears CARRY. -/
def Obligations.NotComplementsTheView : Prop :=
  (∀ (s : State) (r : Reg), viewOk 1 r = true →
    WritesView (exec (.not1 r) s) s 1 3 r ((2 ^ 8 - 1) ^^^ (s.reg r 1).toNat) (False)) ∧
  (∀ (s : State) (r : Reg), viewOk 2 r = true →
    WritesView (exec (.not2 r) s) s 2 3 r ((2 ^ 16 - 1) ^^^ (s.reg r 2).toNat) (False)) ∧
  (∀ (s : State) (r : Reg), viewOk 3 r = true →
    WritesView (exec (.not3 r) s) s 3 3 r ((2 ^ 24 - 1) ^^^ (s.reg r 3).toNat) (False))

/-- TST.w ANDs and writes only the flags. -/
def Obligations.TstWritesOnlyTheFlags : Prop :=
  (∀ (s : State) (d r : Reg), viewOk 1 d = true → viewOk 1 r = true →
    WritesFlagsOnly (exec (.tst1 d r) s) s ((s.reg d 1).toNat &&& (s.reg r 1).toNat) (False)) ∧
  (∀ (s : State) (d r : Reg), viewOk 2 d = true → viewOk 2 r = true →
    WritesFlagsOnly (exec (.tst2 d r) s) s ((s.reg d 2).toNat &&& (s.reg r 2).toNat) (False)) ∧
  (∀ (s : State) (d r : Reg), viewOk 3 d = true → viewOk 3 r = true →
    WritesFlagsOnly (exec (.tst3 d r) s) s ((s.reg d 3).toNat &&& (s.reg r 3).toNat) (False))

/-- LOADI.w loads its immediate and sets ZERO from it. -/
def Obligations.LoadiWritesTheImmediate : Prop :=
  (∀ (s : State) (d : Reg) (imm : BitVec 8), viewOk 1 d = true →
    WritesView (exec (.loadi1 d imm) s) s 1 4 d (imm.toNat) (False)) ∧
  (∀ (s : State) (d : Reg) (imm : BitVec 16), viewOk 2 d = true →
    WritesView (exec (.loadi2 d imm) s) s 2 5 d (imm.toNat) (False)) ∧
  (∀ (s : State) (d : Reg) (imm : BitVec 24), viewOk 3 d = true →
    WritesView (exec (.loadi3 d imm) s) s 3 6 d (imm.toNat) (False))

/-- MOV.w copies the source view as it was. -/
def Obligations.MovCopiesTheOldSource : Prop :=
  (∀ (s : State) (d r : Reg), viewOk 1 d = true → viewOk 1 r = true →
    WritesView (exec (.mov1 d r) s) s 1 3 d ((s.reg r 1).toNat) (False)) ∧
  (∀ (s : State) (d r : Reg), viewOk 2 d = true → viewOk 2 r = true →
    WritesView (exec (.mov2 d r) s) s 2 3 d ((s.reg r 2).toNat) (False)) ∧
  (∀ (s : State) (d r : Reg), viewOk 3 d = true → viewOk 3 r = true →
    WritesView (exec (.mov3 d r) s) s 3 3 d ((s.reg r 3).toNat) (False))

/-- LOAD.w reads a backed address and sets ZERO from the value. -/
def Obligations.LoadReadsBackedMemory : Prop :=
  (∀ (s : State) (d : Reg) (a : U24), viewOk 1 d = true → s.inMem a 1 = true →
    WritesView (exec (.load1 d a) s) s 1 6 d (s.memRead a 1).toNat False) ∧
  (∀ (s : State) (d : Reg) (a : U24), viewOk 2 d = true → s.inMem a 2 = true →
    WritesView (exec (.load2 d a) s) s 2 6 d (s.memRead a 2).toNat False) ∧
  (∀ (s : State) (d : Reg) (a : U24), viewOk 3 d = true → s.inMem a 3 = true →
    WritesView (exec (.load3 d a) s) s 3 6 d (s.memRead a 3).toNat False)

/-- STORE.w writes its bytes at a backed address. -/
def Obligations.StoreWritesBackedMemory : Prop :=
  (∀ (s : State) (d : Reg) (a : U24), viewOk 1 d = true → s.inMem a 1 = true →
    StoresView (exec (.store1 d a) s) s 1 d a) ∧
  (∀ (s : State) (d : Reg) (a : U24), viewOk 2 d = true → s.inMem a 2 = true →
    StoresView (exec (.store2 d a) s) s 2 d a) ∧
  (∀ (s : State) (d : Reg) (a : U24), viewOk 3 d = true → s.inMem a 3 = true →
    StoresView (exec (.store3 d a) s) s 3 d a)

/-- LOAD.w and STORE.w of an unbacked byte take the Data fault. -/
def Obligations.UnbackedDataAccessFaults : Prop :=
  (∀ (s : State) (d : Reg) (a : U24), viewOk 1 d = true → s.inMem a 1 = false →
    AnswersFault (exec (.load1 d a) s) s .memoryFault .data (some 0x0839#16) (s.firstBad a 1) ∧
    (s.firstBad a 1).isSome = true) ∧
  (∀ (s : State) (d : Reg) (a : U24), viewOk 2 d = true → s.inMem a 2 = false →
    AnswersFault (exec (.load2 d a) s) s .memoryFault .data (some 0x083A#16) (s.firstBad a 2) ∧
    (s.firstBad a 2).isSome = true) ∧
  (∀ (s : State) (d : Reg) (a : U24), viewOk 3 d = true → s.inMem a 3 = false →
    AnswersFault (exec (.load3 d a) s) s .memoryFault .data (some 0x083B#16) (s.firstBad a 3) ∧
    (s.firstBad a 3).isSome = true) ∧
  (∀ (s : State) (d : Reg) (a : U24), viewOk 1 d = true → s.inMem a 1 = false →
    AnswersFault (exec (.store1 d a) s) s .memoryFault .data (some 0x083D#16) (s.firstBad a 1) ∧
    (s.firstBad a 1).isSome = true) ∧
  (∀ (s : State) (d : Reg) (a : U24), viewOk 2 d = true → s.inMem a 2 = false →
    AnswersFault (exec (.store2 d a) s) s .memoryFault .data (some 0x083E#16) (s.firstBad a 2) ∧
    (s.firstBad a 2).isSome = true) ∧
  (∀ (s : State) (d : Reg) (a : U24), viewOk 3 d = true → s.inMem a 3 = false →
    AnswersFault (exec (.store3 d a) s) s .memoryFault .data (some 0x083F#16) (s.firstBad a 3) ∧
    (s.firstBad a 3).isSome = true)

/-- JMP sets pc to its absolute target. -/
def Obligations.JmpGoesToItsTarget : Prop :=
  ∀ (s : State) (a : U24), JumpsTo (exec (.jmp a) s) s a

/-- JZ and JNZ jump on ZERO and else fall through. -/
def Obligations.ZeroJumpsTestZero : Prop :=
  ∀ (s : State) (a : U24), JumpsTo (exec (.jz a) s) s (if s.zero = true then a else s.pc + 5#24) ∧
    JumpsTo (exec (.jnz a) s) s (if s.zero = true then s.pc + 5#24 else a)

/-- JC and JNC jump on CARRY and else fall through. -/
def Obligations.CarryJumpsTestCarry : Prop :=
  ∀ (s : State) (a : U24), JumpsTo (exec (.jc a) s) s (if s.carry = true then a else s.pc + 5#24) ∧
    JumpsTo (exec (.jnc a) s) s (if s.carry = true then s.pc + 5#24 else a)

/-- After CMP.w the four jumps test =, not =, < and >= unsigned. -/
def Obligations.CompareThenJumpTestsUnsignedOrder : Prop :=
  (∀ (s : State) (d r : Reg) (a : U24), viewOk 1 d = true → viewOk 1 r = true →
    ∃ t, exec (.cmp1 d r) s = .next t ∧
      JumpsTo (exec (.jz a) t) t (if s.reg d 1 = s.reg r 1 then a else t.pc + 5#24) ∧
      JumpsTo (exec (.jnz a) t) t (if s.reg d 1 ≠ s.reg r 1 then a else t.pc + 5#24) ∧
      JumpsTo (exec (.jc a) t) t (if (s.reg d 1).toNat < (s.reg r 1).toNat then a else t.pc + 5#24) ∧
      JumpsTo (exec (.jnc a) t) t (if (s.reg r 1).toNat ≤ (s.reg d 1).toNat then a else t.pc + 5#24)) ∧
  (∀ (s : State) (d r : Reg) (a : U24), viewOk 2 d = true → viewOk 2 r = true →
    ∃ t, exec (.cmp2 d r) s = .next t ∧
      JumpsTo (exec (.jz a) t) t (if s.reg d 2 = s.reg r 2 then a else t.pc + 5#24) ∧
      JumpsTo (exec (.jnz a) t) t (if s.reg d 2 ≠ s.reg r 2 then a else t.pc + 5#24) ∧
      JumpsTo (exec (.jc a) t) t (if (s.reg d 2).toNat < (s.reg r 2).toNat then a else t.pc + 5#24) ∧
      JumpsTo (exec (.jnc a) t) t (if (s.reg r 2).toNat ≤ (s.reg d 2).toNat then a else t.pc + 5#24)) ∧
  (∀ (s : State) (d r : Reg) (a : U24), viewOk 3 d = true → viewOk 3 r = true →
    ∃ t, exec (.cmp3 d r) s = .next t ∧
      JumpsTo (exec (.jz a) t) t (if s.reg d 3 = s.reg r 3 then a else t.pc + 5#24) ∧
      JumpsTo (exec (.jnz a) t) t (if s.reg d 3 ≠ s.reg r 3 then a else t.pc + 5#24) ∧
      JumpsTo (exec (.jc a) t) t (if (s.reg d 3).toNat < (s.reg r 3).toNat then a else t.pc + 5#24) ∧
      JumpsTo (exec (.jnc a) t) t (if (s.reg r 3).toNat ≤ (s.reg d 3).toNat then a else t.pc + 5#24))

/-- JSR pushes the address after it and jumps. -/
def Obligations.JsrPushesTheReturnAddress : Prop :=
  ∀ (s : State) (a : U24), s.inMem (s.sp - 3#24) 3 = true →
    Pushes (exec (.jsr a) s) s 3 (s.pc + 5#24) a

/-- RTS pops three bytes into pc. -/
def Obligations.RtsPopsTheReturnAddress : Prop :=
  ∀ s : State, s.inMem s.sp 3 = true →
    ∃ t, exec .rts s = .next t ∧ t.sp = s.sp + 3#24 ∧ AllCellsKept s t ∧ FlagsKept s t ∧ MemKept s t ∧
      Retires s t (s.memRead s.sp 3)

/-- PUSH.w lowers sp and writes the view there. -/
def Obligations.PushLowersSpThenWrites : Prop :=
  (∀ (s : State) (r : Reg), viewOk 1 r = true → s.inMem (s.sp - 1#24) 1 = true →
    Pushes (exec (.push1 r) s) s 1 (s.reg r 1) (s.pc + 3#24)) ∧
  (∀ (s : State) (r : Reg), viewOk 2 r = true → s.inMem (s.sp - 2#24) 2 = true →
    Pushes (exec (.push2 r) s) s 2 (s.reg r 2) (s.pc + 3#24)) ∧
  (∀ (s : State) (r : Reg), viewOk 3 r = true → s.inMem (s.sp - 3#24) 3 = true →
    Pushes (exec (.push3 r) s) s 3 (s.reg r 3) (s.pc + 3#24))

/-- POP.w reads the item at sp and raises sp. -/
def Obligations.PopReadsThenRaisesSp : Prop :=
  (∀ (s : State) (r : Reg), viewOk 1 r = true → s.inMem s.sp 1 = true →
    PopsView (exec (.pop1 r) s) s 1 r) ∧
  (∀ (s : State) (r : Reg), viewOk 2 r = true → s.inMem s.sp 2 = true →
    PopsView (exec (.pop2 r) s) s 2 r) ∧
  (∀ (s : State) (r : Reg), viewOk 3 r = true → s.inMem s.sp 3 = true →
    PopsView (exec (.pop3 r) s) s 3 r)

/-- PUSH, POP, JSR and RTS of an unbacked byte take the Stack fault. -/
def Obligations.UnbackedStackAccessFaults : Prop :=
  (∀ (s : State) (r : Reg), viewOk 1 r = true → s.inMem (s.sp - 1#24) 1 = false →
    AnswersFault (exec (.push1 r) s) s .memoryFault .stack (some 0x0241#16)
      (s.firstBad (s.sp - 1#24) 1) ∧ (s.firstBad (s.sp - 1#24) 1).isSome = true) ∧
  (∀ (s : State) (r : Reg), viewOk 2 r = true → s.inMem (s.sp - 2#24) 2 = false →
    AnswersFault (exec (.push2 r) s) s .memoryFault .stack (some 0x0242#16)
      (s.firstBad (s.sp - 2#24) 2) ∧ (s.firstBad (s.sp - 2#24) 2).isSome = true) ∧
  (∀ (s : State) (r : Reg), viewOk 3 r = true → s.inMem (s.sp - 3#24) 3 = false →
    AnswersFault (exec (.push3 r) s) s .memoryFault .stack (some 0x0243#16)
      (s.firstBad (s.sp - 3#24) 3) ∧ (s.firstBad (s.sp - 3#24) 3).isSome = true) ∧
  (∀ (s : State) (r : Reg), viewOk 1 r = true → s.inMem s.sp 1 = false →
    AnswersFault (exec (.pop1 r) s) s .memoryFault .stack (some 0x0245#16) (s.firstBad s.sp 1) ∧
    (s.firstBad s.sp 1).isSome = true) ∧
  (∀ (s : State) (r : Reg), viewOk 2 r = true → s.inMem s.sp 2 = false →
    AnswersFault (exec (.pop2 r) s) s .memoryFault .stack (some 0x0246#16) (s.firstBad s.sp 2) ∧
    (s.firstBad s.sp 2).isSome = true) ∧
  (∀ (s : State) (r : Reg), viewOk 3 r = true → s.inMem s.sp 3 = false →
    AnswersFault (exec (.pop3 r) s) s .memoryFault .stack (some 0x0247#16) (s.firstBad s.sp 3) ∧
    (s.firstBad s.sp 3).isSome = true) ∧
  (∀ (s : State) (a : U24), s.inMem (s.sp - 3#24) 3 = false →
    AnswersFault (exec (.jsr a) s) s .memoryFault .stack (some 0x065C#16) (s.firstBad (s.sp - 3#24) 3) ∧
    (s.firstBad (s.sp - 3#24) 3).isSome = true) ∧
  (∀ s : State, s.inMem s.sp 3 = false →
    AnswersFault (exec .rts s) s .memoryFault .stack (some 0x0060#16) (s.firstBad s.sp 3) ∧
    (s.firstBad s.sp 3).isSome = true)

/-- HLT enters Halted, moves pc past itself and is counted. -/
def Obligations.HltEntersHalted : Prop :=
  ∀ s : State, ∃ t, exec .hlt s = .next t ∧ t.engine = .halted ∧ t.pc = s.pc + 2#24 ∧
    t.icount = (s.icount + 1) % 2 ^ s.cfg.icountBits ∧ AllCellsKept s t ∧ FlagsKept s t ∧ t.sp = s.sp ∧
    MemKept s t ∧ t.fault = s.fault ∧ t.cfg = s.cfg ∧ step t = .next t

/-- RTS undoes JSR and POP.w undoes PUSH.w. -/
def Obligations.CallReturnSymmetry : Prop :=
  (∀ (s v t : State) (a : U24), s.inMem (s.sp - 3#24) 3 = true → exec (.jsr a) s = .next t →
    v.cfg = s.cfg → v.sp = t.sp → (∀ k, k < 3 → v.byteAt (t.sp + BitVec.ofNat 24 k) = t.byteAt (t.sp + BitVec.ofNat 24 k)) →
    ∃ u, exec .rts v = .next u ∧ u.pc = s.pc + 5#24 ∧ u.sp = s.sp) ∧
  (∀ (s v t : State) (r : Reg), viewOk 1 r = true → s.inMem (s.sp - 1#24) 1 = true →
    exec (.push1 r) s = .next t → v.cfg = s.cfg → v.sp = t.sp →
    (∀ k, k < 1 → v.byteAt (t.sp + BitVec.ofNat 24 k) = t.byteAt (t.sp + BitVec.ofNat 24 k)) →
    ∃ u, exec (.pop1 r) v = .next u ∧ u.reg r 1 = s.reg r 1 ∧ u.sp = s.sp) ∧
  (∀ (s v t : State) (r : Reg), viewOk 2 r = true → s.inMem (s.sp - 2#24) 2 = true →
    exec (.push2 r) s = .next t → v.cfg = s.cfg → v.sp = t.sp →
    (∀ k, k < 2 → v.byteAt (t.sp + BitVec.ofNat 24 k) = t.byteAt (t.sp + BitVec.ofNat 24 k)) →
    ∃ u, exec (.pop2 r) v = .next u ∧ u.reg r 2 = s.reg r 2 ∧ u.sp = s.sp) ∧
  (∀ (s v t : State) (r : Reg), viewOk 3 r = true → s.inMem (s.sp - 3#24) 3 = true →
    exec (.push3 r) s = .next t → v.cfg = s.cfg → v.sp = t.sp →
    (∀ k, k < 3 → v.byteAt (t.sp + BitVec.ofNat 24 k) = t.byteAt (t.sp + BitVec.ofNat 24 k)) →
    ∃ u, exec (.pop3 r) v = .next u ∧ u.reg r 3 = s.reg r 3 ∧ u.sp = s.sp)

/-- An instruction whose view passes cell 8 takes the Register fault. The model's choice (log entry 5): the decoder
never yields such an instruction. -/
def Obligations.RegisterPastCellEightFaults : Prop :=
  ∀ (i : Instr) (s : State), i.wf = false →
    AnswersFault (exec i s) s .invalidInstruction .register (some i.code) none

/-- A step runs the instruction the bytes at pc decode to. Log entries 3 and 9. -/
def Obligations.StepRunsTheDecodedInstruction : Prop :=
  ∀ (s : State) (bs : List Byte) (i : Instr), s.enabled = true → decode bs = .ok (i, []) → HoldsAt s s.pc bs →
    step s = exec i s.enter ∧ s.enter = { s with engine := .running }

/-- A word outside the opcode map raises InvalidOpCode. -/
def Obligations.UnknownCodeRaisesInvalidOpCode : Prop :=
  (∀ s : State, s.enabled = true → s.inMem s.pc 2 = true → (∀ row ∈ opcodeMap, row.code ≠ s.opcodeAt) →
    AnswersFault (step s) s .invalidOpCode .unknown (some s.opcodeAt) none) ∧
  (∀ s : State, s.opcodeAt.toNat = (s.byteAt s.pc).toNat + 256 * (s.byteAt (s.pc + 1#24)).toNat) ∧
  (∀ (c : Code) (rest : List Byte), (∀ row ∈ opcodeMap, row.code ≠ c) →
    decode (leBytes 2 c.toNat ++ rest) = .error (.invalidOpCode c))

/-- The fetch and decode checks fault in the order of R806. -/
def Obligations.FetchChecksComeInOrder : Prop :=
  ∀ s : State, s.enabled = true →
    (s.inMem s.pc 2 = false → AnswersFault (step s) s .memoryFault .fetch none (s.firstBad s.pc 2)) ∧
    (s.inMem s.pc 2 = true → ∀ row ∈ opcodeMap, row.code = s.opcodeAt →
      (s.inMem (s.pc + 2#24) (operandCount row.code) = false →
        AnswersFault (step s) s .invalidInstruction .truncated (some row.code)
          (s.firstBad (s.pc + 2#24) (operandCount row.code))) ∧
      (s.inMem (s.pc + 2#24) (operandCount row.code) = true →
        (∀ w, (∃ mk, row.shape = .r w mk) ∨ (∃ mk, row.shape = .ri w mk) ∨ (∃ mk, row.shape = .ra w mk) →
          (highNibble (s.byteAt (s.pc + 2#24)) ≠ 0#4 →
            AnswersFault (step s) s .invalidInstruction .packing (some row.code) none) ∧
          (highNibble (s.byteAt (s.pc + 2#24)) = 0#4 → viewOk w (lowNibble (s.byteAt (s.pc + 2#24))) = false →
            AnswersFault (step s) s .invalidInstruction .register (some row.code) none)) ∧
        (∀ w mk, row.shape = .rr w mk →
          viewOk w (lowNibble (s.byteAt (s.pc + 2#24))) = false ∨
            viewOk w (highNibble (s.byteAt (s.pc + 2#24))) = false →
          AnswersFault (step s) s .invalidInstruction .register (some row.code) none)))

/-- A faulting step writes only the engine state and the record. Log entries 3 and 4: the step from Idle is read
from R910, the step in Faulted from R111. -/
def Obligations.FaultsArePrecise : Prop :=
  ∀ s t : State, s.enabled = true → step s = .next t →
    (t.engine = .faulted → ∃ kind reason code addr, TakesFault s t kind reason code addr ∧ kind = reason.kind ∧
      step t = .next t) ∧
    (t.engine ≠ .faulted → ∃ i, s.fetch = .ok i ∧ exec i s.enter = .next t ∧
      t.icount = (s.icount + 1) % 2 ^ s.cfg.icountBits)

/-- icount goes up by one exactly when an instruction completes. -/
def Obligations.InstructionCounterCountsCompletions : Prop :=
  (∀ s t : State, s.enabled = true → step s = .next t →
    (t.engine ≠ .faulted → t.icount = (s.icount + 1) % 2 ^ s.cfg.icountBits) ∧
    (t.engine = .faulted → t.icount = s.icount)) ∧
  (∀ s t : State, s.enabled = false → step s = .next t → t.icount = s.icount) ∧
  (∀ c : Config, (State.create c).icount = 0) ∧ (∀ s : State, s.hostReset.icount = 0)

/-- No step stops outside the machine. Log entries 1 and 4: that a fault and a step in a terminal state are next
states is read from R808 and R111. -/
def Obligations.EveryStepAnswersANextState : Prop :=
  ∀ s : State, ∃ t, step s = .next t ∧ t.cfg = s.cfg

/-- Only HLT takes the engine to Halted. -/
def Obligations.OnlyHltHalts : Prop :=
  ∀ s t : State, s.enabled = true → step s = .next t → t.engine = .halted →
    s.inMem s.pc 2 = true ∧ s.opcodeAt = 0x0064#16

/-- JMP to HLT, PUSH and POP write no flag; moves and logic clear CARRY. -/
def Obligations.ControlAndStackInstructionsKeepFlags : Prop :=
  (∀ (i : Instr) (s t : State), keepsFlags i = true → exec i s = .next t → FlagsKept s t) ∧
  (∀ (s t : State) (d r : Reg), t.engine ≠ .faulted →
    (exec (.and1 d r) s = .next t ∨ exec (.and2 d r) s = .next t ∨ exec (.and3 d r) s = .next t ∨
     exec (.or1 d r) s = .next t ∨ exec (.or2 d r) s = .next t ∨ exec (.or3 d r) s = .next t ∨
     exec (.xor1 d r) s = .next t ∨ exec (.xor2 d r) s = .next t ∨ exec (.xor3 d r) s = .next t ∨
     exec (.not1 d) s = .next t ∨ exec (.not2 d) s = .next t ∨ exec (.not3 d) s = .next t ∨
     exec (.tst1 d r) s = .next t ∨ exec (.tst2 d r) s = .next t ∨ exec (.tst3 d r) s = .next t ∨
     exec (.mov1 d r) s = .next t ∨ exec (.mov2 d r) s = .next t ∨ exec (.mov3 d r) s = .next t) → t.carry = false) ∧
  (∀ (s t : State) (d : Reg) (a : U24) (b1 : BitVec 8) (b2 : BitVec 16) (b3 : BitVec 24), t.engine ≠ .faulted →
    (exec (.loadi1 d b1) s = .next t ∨ exec (.loadi2 d b2) s = .next t ∨ exec (.loadi3 d b3) s = .next t ∨
     exec (.load1 d a) s = .next t ∨ exec (.load2 d a) s = .next t ∨ exec (.load3 d a) s = .next t ∨
     exec (.store1 d a) s = .next t ∨ exec (.store2 d a) s = .next t ∨ exec (.store3 d a) s = .next t) →
    t.carry = false)

/-- Only JSR, RTS, PUSH and POP change sp. -/
def Obligations.OnlyStackInstructionsMoveSp : Prop :=
  (∀ (i : Instr) (s t : State), usesStack i = false → exec i s = .next t → t.sp = s.sp) ∧
  (∀ (i : Instr) (s t : State), exec i s = .next t → t.cfg = s.cfg)

/-- Only STORE, PUSH and JSR change memory. -/
def Obligations.OnlyStoresPushesAndCallsWriteMemory : Prop :=
  ∀ (i : Instr) (s t : State), writesMemory i = false → exec i s = .next t → MemKept s t

/-- The invariant holds at reset and at creation. Log entries 7 and 8: the canonical form and the counter as a
number are the model's. -/
def Obligations.InvariantHoldsAtReset : Prop :=
  Inv State.reset ∧ ∀ c : Config, ConfigOk c → Inv (State.create c)

/-- Every step keeps the invariant. Log entries 7 and 8: the canonical form and the counter as a number are the
model's. -/
def Obligations.EveryStepKeepsTheInvariant : Prop :=
  ∀ s t : State, Inv s → step s = .next t → Inv t

/-- reset, load and run keep the invariant. Log entries 7, 8 and 13. -/
def Obligations.HostOperationsKeepTheInvariant : Prop :=
  ∀ s : State, Inv s → Inv s.hostReset ∧ (∀ image a t, s.hostLoad image a = some t → Inv t) ∧
    (∀ cap, Inv (s.hostRun cap).1)

/-- The decoder and the encoder are inverse. -/
def Obligations.DecodeAndEncodeAgree : Prop :=
  (∀ (i : Instr) (rest : List Byte), i.wf = true → decode (encode i ++ rest) = .ok (i, rest)) ∧
  (∀ (bs : List Byte) (i : Instr) (rest : List Byte), decode bs = .ok (i, rest) →
    i.wf = true ∧ bs = encode i ++ rest) ∧
  (∀ row ∈ opcodeMap, ∃ i : Instr, i.wf = true ∧ i.code = row.code ∧
    decode (encode i) = .ok (i, []) ∧ (encode i).take 2 = leBytes 2 row.code.toNat)

/-- 59 operations and 59 distinct codes. -/
def Obligations.OpcodeMapIsABijection : Prop :=
  opcodeMap.length = 59 ∧ (opcodeMap.map (fun row => row.code)).Nodup ∧
  (∀ row ∈ opcodeMap, lookup row.code = some row) ∧
  (∀ i : Instr, ∃ row ∈ opcodeMap, row.code = i.code) ∧
  (∀ row ∈ opcodeMap, ∃ i : Instr, i.code = row.code) ∧
  (∀ i j : Instr, i.code = j.code → i.ctorIdx = j.ctorIdx ∧ (encode i).length = (encode j).length)

/-- An instruction has 2 + code[11:9] bytes, between 2 and 6. -/
def Obligations.LengthIsReadFromTheCode : Prop :=
  (∀ i : Instr, (encode i).length = 2 + (i.code.toNat / 512) % 8 ∧ (i.code.toNat / 512) % 8 ≤ 4) ∧
  (∀ i : Instr, (encode i).take 2 = [i.code.extractLsb' 0 8, i.code.extractLsb' 8 8])

/-- Codes outside the field layout are not in the map. -/
def Obligations.MalformedCodesAreInvalid : Prop :=
  ∀ row ∈ opcodeMap, row.code.extractLsb' 12 4 = 0#4 ∧ operandCount row.code ≤ 4 ∧
    1 ≤ (row.code.extractLsb' 2 7).toNat ∧ (row.code.extractLsb' 2 7).toNat ≤ 25 ∧
    ((row.code.extractLsb' 2 7).toNat ≤ 17 ↔ row.code.extractLsb' 0 2 ≠ 0#2) ∧
    row.code.extractLsb' 0 8 ≠ 0xFF#8 ∧ row.code ≠ 0#16 ∧
    (row.code.extractLsb' 0 2).toNat = row.shape.width

/-- A word of each of the 59 rows decodes to the instruction the spec prints. -/
def Obligations.SampleWordsDecodeAsThePrintedTable : Prop :=
  (decode [0x05, 0x02, 0x51] = .ok (.add1 1 5, []) ∧
    decode [0x06, 0x02, 0x52] = .ok (.add2 2 5, []) ∧
    decode [0x07, 0x02, 0x53] = .ok (.add3 3 5, []) ∧
    decode [0x09, 0x02, 0x51] = .ok (.sub1 1 5, []) ∧
    decode [0x0A, 0x02, 0x52] = .ok (.sub2 2 5, []) ∧
    decode [0x0B, 0x02, 0x53] = .ok (.sub3 3 5, []) ∧
    decode [0x0D, 0x02, 0x04] = .ok (.inc1 4, []) ∧
    decode [0x0E, 0x02, 0x05] = .ok (.inc2 5, []) ∧
    decode [0x0F, 0x02, 0x06] = .ok (.inc3 6, []) ∧
    decode [0x11, 0x02, 0x04] = .ok (.dec1 4, []) ∧
    decode [0x12, 0x02, 0x05] = .ok (.dec2 5, []) ∧
    decode [0x13, 0x02, 0x06] = .ok (.dec3 6, [])) ∧
  (decode [0x15, 0x04, 0x04, 0xA1] = .ok (.addi1 4 0xA1, []) ∧
    decode [0x16, 0x06, 0x05, 0xA1, 0xB2] = .ok (.addi2 5 0xB2A1, []) ∧
    decode [0x17, 0x08, 0x06, 0xA1, 0xB2, 0xC3] = .ok (.addi3 6 0xC3B2A1, []) ∧
    decode [0x19, 0x02, 0x51] = .ok (.and1 1 5, []) ∧
    decode [0x1A, 0x02, 0x52] = .ok (.and2 2 5, []) ∧
    decode [0x1B, 0x02, 0x53] = .ok (.and3 3 5, []) ∧
    decode [0x1D, 0x02, 0x51] = .ok (.or1 1 5, []) ∧
    decode [0x1E, 0x02, 0x52] = .ok (.or2 2 5, []) ∧
    decode [0x1F, 0x02, 0x53] = .ok (.or3 3 5, []) ∧
    decode [0x21, 0x02, 0x51] = .ok (.xor1 1 5, []) ∧
    decode [0x22, 0x02, 0x52] = .ok (.xor2 2 5, []) ∧
    decode [0x23, 0x02, 0x53] = .ok (.xor3 3 5, [])) ∧
  (decode [0x25, 0x02, 0x04] = .ok (.not1 4, []) ∧
    decode [0x26, 0x02, 0x05] = .ok (.not2 5, []) ∧
    decode [0x27, 0x02, 0x06] = .ok (.not3 6, []) ∧
    decode [0x29, 0x02, 0x51] = .ok (.cmp1 1 5, []) ∧
    decode [0x2A, 0x02, 0x52] = .ok (.cmp2 2 5, []) ∧
    decode [0x2B, 0x02, 0x53] = .ok (.cmp3 3 5, []) ∧
    decode [0x2D, 0x02, 0x51] = .ok (.tst1 1 5, []) ∧
    decode [0x2E, 0x02, 0x52] = .ok (.tst2 2 5, []) ∧
    decode [0x2F, 0x02, 0x53] = .ok (.tst3 3 5, []) ∧
    decode [0x35, 0x04, 0x04, 0xA1] = .ok (.loadi1 4 0xA1, []) ∧
    decode [0x36, 0x06, 0x05, 0xA1, 0xB2] = .ok (.loadi2 5 0xB2A1, []) ∧
    decode [0x37, 0x08, 0x06, 0xA1, 0xB2, 0xC3] = .ok (.loadi3 6 0xC3B2A1, [])) ∧
  (decode [0x31, 0x02, 0x51] = .ok (.mov1 1 5, []) ∧
    decode [0x32, 0x02, 0x52] = .ok (.mov2 2 5, []) ∧
    decode [0x33, 0x02, 0x53] = .ok (.mov3 3 5, []) ∧
    decode [0x39, 0x08, 0x04, 0x56, 0x34, 0x12] = .ok (.load1 4 0x123456, []) ∧
    decode [0x3A, 0x08, 0x05, 0x56, 0x34, 0x12] = .ok (.load2 5 0x123456, []) ∧
    decode [0x3B, 0x08, 0x06, 0x56, 0x34, 0x12] = .ok (.load3 6 0x123456, []) ∧
    decode [0x3D, 0x08, 0x04, 0x56, 0x34, 0x12] = .ok (.store1 4 0x123456, []) ∧
    decode [0x3E, 0x08, 0x05, 0x56, 0x34, 0x12] = .ok (.store2 5 0x123456, []) ∧
    decode [0x3F, 0x08, 0x06, 0x56, 0x34, 0x12] = .ok (.store3 6 0x123456, []) ∧
    decode [0x41, 0x02, 0x04] = .ok (.push1 4, []) ∧
    decode [0x42, 0x02, 0x05] = .ok (.push2 5, []) ∧
    decode [0x43, 0x02, 0x06] = .ok (.push3 6, []) ∧
    decode [0x45, 0x02, 0x04] = .ok (.pop1 4, []) ∧
    decode [0x46, 0x02, 0x05] = .ok (.pop2 5, []) ∧
    decode [0x47, 0x02, 0x06] = .ok (.pop3 6, [])) ∧
  (decode [0x48, 0x06, 0x56, 0x34, 0x12] = .ok (.jmp 0x123456, []) ∧
    decode [0x4C, 0x06, 0x56, 0x34, 0x12] = .ok (.jz 0x123456, []) ∧
    decode [0x50, 0x06, 0x56, 0x34, 0x12] = .ok (.jnz 0x123456, []) ∧
    decode [0x54, 0x06, 0x56, 0x34, 0x12] = .ok (.jc 0x123456, []) ∧
    decode [0x58, 0x06, 0x56, 0x34, 0x12] = .ok (.jnc 0x123456, []) ∧
    decode [0x5C, 0x06, 0x56, 0x34, 0x12] = .ok (.jsr 0x123456, []) ∧
    decode [0x60, 0x00] = .ok (.rts, []) ∧
    decode [0x64, 0x00] = .ok (.hlt, [])) ∧
  (decode [0x05, 0x02, 0x88] = .ok (.add1 8 8, []) ∧
    decode [0x06, 0x02, 0x31] = .ok (.add2 1 3, []) ∧
    decode [0x37, 0x08, 0x06, 0xEF, 0xCD, 0xAB] = .ok (.loadi3 6 0xABCDEF, []) ∧
    decode [0x3A, 0x08, 0x04, 0x01, 0x03, 0x00] = .ok (.load2 4 0x000301, []))

/-- Everything the assembler emits decodes, instruction by instruction. Log entries 10, 11 and 18. -/
def Obligations.AssemblerEmitsOnlyDecodableCode : Prop :=
  ∀ (lenient : Bool) (src : Asm.Text) (bytes : List Byte), Asm.assemble lenient src = .ok bytes →
    (∃ prog : List Instr, (∀ i ∈ prog, i.wf = true ∧ ∀ rest, decode (encode i ++ rest) = .ok (i, rest)) ∧
      bytes = prog.flatMap encode) ∧ bytes.length ≤ 2 ^ 24

/-- Pass 2 emits the bytes pass 1 counted, and a label is the offset of the bytes after it. Log entries 10 and 12:
the lines of the text, and the value of a label at offset 2^24. -/
def Obligations.AssemblerPassesAgreeOnOffsets : Prop :=
  (∀ (lenient : Bool) (lines : List (Asm.Text × Nat)) (labels : Asm.Labels) (size : Nat) (bytes : List Byte),
    Asm.pass1 lenient lines 0 [] = .ok (labels, size) → Asm.pass2 lenient labels lines = .ok bytes →
    bytes.length = size ∧
    (∀ (before after : List (Asm.Text × Nat)) (line : Asm.Text) (n : Nat), lines = before ++ (line, n) :: after →
      ∃ head mid tail : List Byte, Asm.pass2 lenient labels before = .ok head ∧
        Asm.pass2 lenient labels after = .ok tail ∧ bytes = head ++ mid ++ tail ∧
        (∀ name, Asm.parseItem line = some (.label name) →
          mid = [] ∧ labels.find name = some (u24 head.length)) ∧
        (∀ row i, Asm.parseItem line = some (.instr row i) →
          ∃ instr, i.resolve labels = .ok instr ∧ mid = encode instr) ∧
        (Asm.parseItem line = none → lenient = true ∧ mid = [])) ∧
    (∀ name, (∀ l ∈ lines, Asm.parseItem l.1 ≠ some (.label name)) → labels.find name = none)) ∧
  (∀ (labels : Asm.Labels) (name : Asm.Text) (mk : U24 → Instr),
    (∀ a, labels.find name = some a → Asm.AsmInstr.resolve labels (.awaiting name mk) = .ok (mk a)) ∧
    (labels.find name = none → Asm.AsmInstr.resolve labels (.awaiting name mk) = .error (.unknownLabel name)))
end

