-- ==== Sys2Proof/Laws/Bytes.lean ====
section
/-! SUPPORT. The byte-order helpers: little-endian writing and reading are inverse, and the U24 operations are those
of 24-bit vectors. -/

namespace Sys2Proof

@[simp] theorem length_leBytes (n v : Nat) : (leBytes n v).length = n := by
  induction n generalizing v with
  | zero => rfl
  | succ n ih => simp [leBytes, ih]

theorem leNat_lt (bs : List Byte) : leNat bs < 256 ^ bs.length := by
  induction bs with
  | nil => simp [leNat]
  | cons b bs ih =>
    have hb := b.isLt
    simp only [leNat, List.length_cons, pow_succ]
    omega

/-- Reading back the `n` low bytes of a number gives the number modulo `256^n`. -/
theorem leNat_leBytes (n v : Nat) : leNat (leBytes n v) = v % 256 ^ n := by
  induction n generalizing v with
  | zero => simp [leBytes, leNat, Nat.mod_one]
  | succ n ih =>
    simp only [leBytes, leNat, ih, BitVec.toNat_ofNat]
    rw [show 256 ^ (n + 1) = 256 * 256 ^ n from pow_succ' 256 n, Nat.mod_mul]

/-- The bytes of the number that bytes stand for are those bytes. -/
theorem leBytes_leNat (bs : List Byte) : leBytes bs.length (leNat bs) = bs := by
  induction bs with
  | nil => rfl
  | cons b bs ih =>
    have hb := b.isLt
    have h1 : (b.toNat + 256 * leNat bs) / 256 = leNat bs := by omega
    have h2 : BitVec.ofNat 8 (b.toNat + 256 * leNat bs) = b := by
      apply BitVec.eq_of_toNat_eq
      simp only [BitVec.toNat_ofNat]
      omega
    simp only [List.length_cons, leBytes, leNat, h1, h2, ih]

theorem pow_bits (w : Nat) : 2 ^ (8 * w) = 256 ^ w := by
  rw [pow_mul]
  norm_num

@[simp] theorem length_toBytes (w : Nat) (v : Val w) : (toBytes w v).length = w := by simp [toBytes]

@[simp] theorem ofBytes_toBytes (w : Nat) (v : Val w) : ofBytes w (toBytes w v) = v := by
  apply BitVec.eq_of_toNat_eq
  have h := v.isLt
  simp only [ofBytes, toBytes, leNat_leBytes, BitVec.toNat_ofNat]
  rw [← pow_bits, Nat.mod_mod, Nat.mod_eq_of_lt h]

theorem toNat_ofBytes {w : Nat} {bs : List Byte} (h : bs.length = w) : (ofBytes w bs).toNat = leNat bs := by
  have h1 := leNat_lt bs
  rw [h] at h1
  simp only [ofBytes, BitVec.toNat_ofNat, pow_bits]
  exact Nat.mod_eq_of_lt h1

@[simp] theorem toBytes_ofBytes {w : Nat} {bs : List Byte} (h : bs.length = w) : toBytes w (ofBytes w bs) = bs := by
  rw [toBytes, toNat_ofBytes h]
  subst h
  exact leBytes_leNat bs

@[simp] theorem addrOfBytes_addrBytes (a : U24) : addrOfBytes (addrBytes a) = a := ofBytes_toBytes 3 a

@[simp] theorem addrBytes_addrOfBytes {bs : List Byte} (h : bs.length = 3) : addrBytes (addrOfBytes bs) = bs :=
  toBytes_ofBytes h

@[simp] theorem length_addrBytes (a : U24) : (addrBytes a).length = 3 := length_toBytes 3 a

@[simp] theorem lowNibble_nibbles (hi lo : Reg) : lowNibble (nibbles hi lo) = lo := by
  revert hi lo; decide

@[simp] theorem highNibble_nibbles (hi lo : Reg) : highNibble (nibbles hi lo) = hi := by
  revert hi lo; decide

@[simp] theorem nibbles_high_low (b : Byte) : nibbles (highNibble b) (lowNibble b) = b := by
  revert b; decide

theorem add24_eq (a b : U24) : add24 a b = a + b := by
  simp [add24, u24, BitVec.ofNat_add]

theorem sub24_eq (a b : U24) : sub24 a b = a - b := by
  apply BitVec.eq_of_toNat_eq
  simp only [sub24, u24, BitVec.toNat_ofNat, BitVec.toNat_sub]
  congr 1
  omega

end Sys2Proof
end

