-- ==== Sys2Proof/Laws/Memory.lean ====
section
/-! SUPPORT. Memory: a read after a write, and every memory operation keeps the canonical form. -/

namespace Sys2Proof

theorem Memory.read_filter_of_ne (m : Memory) {a b : Nat} (h : b ≠ a) :
    Memory.read (m.filter (fun c => c.1 != a)) b = m.read b := by
  induction m with
  | nil => rfl
  | cons c rest ih =>
    obtain ⟨x, v⟩ := c
    by_cases hx : x = a
    · subst hx; simp [Memory.read, ih, Ne.symm h]
    · simp [Memory.read, hx, ih]

theorem Memory.read_of_not_mem (m : Memory) {a : Nat} (h : ∀ c ∈ m, c.1 ≠ a) : m.read a = 0#8 := by
  induction m with
  | nil => rfl
  | cons c rest ih =>
    obtain ⟨x, v⟩ := c
    have hx : x ≠ a := h (x, v) (by simp)
    simp [Memory.read, hx, ih (fun c hc => h c (by simp [hc]))]

theorem Memory.read_insert_of_ne (m : Memory) {a b : Nat} (v : Byte) (h : b ≠ a) :
    Memory.read (Memory.insert a v m) b = m.read b := by
  induction m with
  | nil => simp [Memory.insert, Memory.read, Ne.symm h]
  | cons c rest ih =>
    obtain ⟨x, u⟩ := c
    unfold Memory.insert
    split
    · simp [Memory.read, Ne.symm h]
    · simp [Memory.read, ih]

theorem Memory.read_insert_self (m : Memory) (a : Nat) (v : Byte) (h : ∀ c ∈ m, c.1 ≠ a) :
    Memory.read (Memory.insert a v m) a = v := by
  induction m with
  | nil => simp [Memory.insert, Memory.read]
  | cons c rest ih =>
    obtain ⟨x, u⟩ := c
    have hx : x ≠ a := h (x, u) (by simp)
    unfold Memory.insert
    split
    · simp [Memory.read]
    · simp [Memory.read, hx, ih (fun c hc => h c (by simp [hc]))]

/-- A byte read after a one-byte write: the value written at that address, the old byte elsewhere (R206). -/
theorem Memory.read_write (m : Memory) (a b : Nat) (v : Byte) :
    (m.write a v).read b = if b = a then v else m.read b := by
  have hf : ∀ c ∈ m.filter (fun c => c.1 != a), c.1 ≠ a := by simp
  unfold Memory.write
  by_cases hb : b = a
  · subst hb
    by_cases hv : v = 0#8
    · simp [hv, Memory.read_of_not_mem _ hf]
    · simp [hv, Memory.read_insert_self _ _ _ hf]
  · by_cases hv : v = 0#8
    · simp [hv, hb, Memory.read_filter_of_ne _ hb]
    · simp [hv, hb, Memory.read_insert_of_ne _ _ hb, Memory.read_filter_of_ne _ hb]

theorem Memory.mem_insert {m : Memory} {a : Nat} {v : Byte} {c : Host.Cell} :
    c ∈ Memory.insert a v m ↔ c = (a, v) ∨ c ∈ m := by
  induction m with
  | nil => simp [Memory.insert]
  | cons d rest ih =>
    obtain ⟨x, u⟩ := d
    unfold Memory.insert
    split
    · simp
    · simp [ih]; tauto

theorem Memory.pairwise_insert {m : Memory} {a : Nat} {v : Byte}
    (h : m.Pairwise (fun x y => x.1 < y.1)) (ha : ∀ c ∈ m, c.1 ≠ a) :
    (Memory.insert a v m).Pairwise (fun x y => x.1 < y.1) := by
  induction m with
  | nil => simp [Memory.insert]
  | cons d rest ih =>
    obtain ⟨x, u⟩ := d
    rw [List.pairwise_cons] at h
    have hx : x ≠ a := ha (x, u) (by simp)
    unfold Memory.insert
    split
    · rename_i hlt
      refine List.pairwise_cons.2 ⟨?_, List.pairwise_cons.2 h⟩
      intro c hc
      rcases List.mem_cons.1 hc with rfl | hc
      · exact hlt
      · exact lt_trans hlt (h.1 c hc)
    · rename_i hlt
      refine List.pairwise_cons.2 ⟨?_, ih h.2 (fun c hc => ha c (by simp [hc]))⟩
      intro c hc
      rcases Memory.mem_insert.1 hc with rfl | hc
      · exact lt_of_le_of_ne (not_lt.1 hlt) hx
      · exact h.1 c hc

/-- An entry after a write is the entry written or an entry of before. -/
theorem Memory.mem_write {m : Memory} {a : Nat} {v : Byte} {c : Host.Cell} (h : c ∈ m.write a v) :
    c.1 = a ∨ c ∈ m := by
  unfold Memory.write at h
  dsimp only at h
  split at h
  · exact .inr (List.mem_filter.1 h).1
  · rcases Memory.mem_insert.1 h with rfl | h
    · exact .inl rfl
    · exact .inr (List.mem_filter.1 h).1

/-- A write keeps the canonical form (log entry 7). -/
theorem Memory.wf_write {m : Memory} (h : m.wf) (a : Nat) (v : Byte) : (m.write a v).wf := by
  have hp : (m.filter (fun c => c.1 != a)).Pairwise (fun x y => x.1 < y.1) := h.1.filter _
  have h0 : ∀ c ∈ m.filter (fun c => c.1 != a), c.2 ≠ 0#8 := fun c hc => h.2 c (List.mem_filter.1 hc).1
  unfold Memory.write
  dsimp only
  split
  · exact ⟨hp, h0⟩
  · rename_i hv
    refine ⟨Memory.pairwise_insert hp (by simp), ?_⟩
    intro c hc
    rcases Memory.mem_insert.1 hc with rfl | hc
    · exact hv
    · exact h0 c hc

/-- Writing bytes keeps the canonical form. -/
theorem Memory.wf_writeBytes {m : Memory} (h : m.wf) (a : U24) (bs : List Byte) : (m.writeBytes a bs).wf := by
  induction bs generalizing m a with
  | nil => exact h
  | cons v vs ih => exact ih (Memory.wf_write h _ _) _

/-- A byte outside those written reads as before (R206). -/
theorem Memory.read_writeBytes_of_ne (m : Memory) (a : U24) (bs : List Byte) (b : U24)
    (h : ∀ k, k < bs.length → b ≠ a + BitVec.ofNat 24 k) : (m.writeBytes a bs).read b.toNat = m.read b.toNat := by
  induction bs generalizing m a with
  | nil => rfl
  | cons v vs ih =>
    have h0 : b.toNat ≠ a.toNat := by
      have := h 0 (by simp)
      simpa [← BitVec.toNat_inj] using this
    have hs : ∀ k, k < vs.length → b ≠ add24 a 1#24 + BitVec.ofNat 24 k := by
      intro k hk
      have := h (k + 1) (by simp [hk])
      rwa [add24_eq, BitVec.add_assoc, show (1#24 + BitVec.ofNat 24 k) = BitVec.ofNat 24 (k + 1) by
        rw [Nat.add_comm k 1, BitVec.ofNat_add]]
    rw [Memory.writeBytes, ih _ _ hs, Memory.read_write, if_neg h0]

/-- Byte k of those written is read back, for a write that does not lap the address space (R206). -/
theorem Memory.read_writeBytes (m : Memory) (a : U24) (bs : List Byte) (hn : bs.length ≤ 2 ^ 24) (k : Nat)
    (hk : k < bs.length) : (m.writeBytes a bs).read (a + BitVec.ofNat 24 k).toNat = bs[k] := by
  induction bs generalizing m a k with
  | nil => simp at hk
  | cons v vs ih =>
    have hstep : ∀ j, add24 a 1#24 + BitVec.ofNat 24 j = a + BitVec.ofNat 24 (j + 1) := by
      intro j
      rw [add24_eq, BitVec.add_assoc, Nat.add_comm j 1, BitVec.ofNat_add]
    simp only [List.length_cons] at hn hk
    cases k with
    | zero =>
      rw [Memory.writeBytes, Memory.read_writeBytes_of_ne]
      · simp [Memory.read_write]
      · intro j hj
        rw [hstep]
        intro hc
        have := congrArg BitVec.toNat (BitVec.add_right_inj a |>.1 hc)
        simp only [BitVec.toNat_ofNat] at this
        omega
    | succ k =>
      rw [Memory.writeBytes, ← hstep, ih _ _ (by omega) k (by omega)]
      simp

/-- An entry after writing bytes has one of the written addresses or was there before. -/
theorem Memory.mem_writeBytes {m : Memory} {a : U24} {bs : List Byte} {c : Host.Cell}
    (h : c ∈ m.writeBytes a bs) : (∃ k, k < bs.length ∧ c.1 = (a + BitVec.ofNat 24 k).toNat) ∨ c ∈ m := by
  induction bs generalizing m a with
  | nil => exact .inr h
  | cons v vs ih =>
    rcases ih h with ⟨k, hk, hc⟩ | hm
    · refine .inl ⟨k + 1, by simp [hk], ?_⟩
      rw [hc, add24_eq, BitVec.add_assoc, Nat.add_comm k 1, BitVec.ofNat_add]
    · rcases Memory.mem_write hm with hc | hm
      · exact .inl ⟨0, by simp, by simp [hc]⟩
      · exact .inr hm

end Sys2Proof
end

