-- ==== Sys2Proof/Laws/State.lean ====
section
/-! SUPPORT. One lemma per field per update of the state, each true by definition, so that no later proof unfolds a
record update. -/

namespace Sys2Proof.Machine

/-! ## `State.raise` -/

@[simp] theorem State.raise_cfg (s : State) (reason : FaultReason) (code : Option Code) (addr : Option U24) :
    (s.raise reason code addr).cfg = s.cfg := rfl
@[simp] theorem State.raise_regs (s : State) (reason : FaultReason) (code : Option Code) (addr : Option U24) :
    (s.raise reason code addr).regs = s.regs := rfl
@[simp] theorem State.raise_pc (s : State) (reason : FaultReason) (code : Option Code) (addr : Option U24) :
    (s.raise reason code addr).pc = s.pc := rfl
@[simp] theorem State.raise_sp (s : State) (reason : FaultReason) (code : Option Code) (addr : Option U24) :
    (s.raise reason code addr).sp = s.sp := rfl
@[simp] theorem State.raise_zero (s : State) (reason : FaultReason) (code : Option Code) (addr : Option U24) :
    (s.raise reason code addr).zero = s.zero := rfl
@[simp] theorem State.raise_carry (s : State) (reason : FaultReason) (code : Option Code) (addr : Option U24) :
    (s.raise reason code addr).carry = s.carry := rfl
@[simp] theorem State.raise_engine (s : State) (reason : FaultReason) (code : Option Code) (addr : Option U24) :
    (s.raise reason code addr).engine = .faulted := rfl
@[simp] theorem State.raise_fault (s : State) (reason : FaultReason) (code : Option Code) (addr : Option U24) :
    (s.raise reason code addr).fault = some ⟨reason.kind, s.pc, code, addr, reason⟩ := rfl
@[simp] theorem State.raise_icount (s : State) (reason : FaultReason) (code : Option Code) (addr : Option U24) :
    (s.raise reason code addr).icount = s.icount := rfl
@[simp] theorem State.raise_mem (s : State) (reason : FaultReason) (code : Option Code) (addr : Option U24) :
    (s.raise reason code addr).mem = s.mem := rfl

/-! ## `State.complete` -/

@[simp] theorem State.complete_cfg (s : State) (npc : U24) :
    (s.complete npc).cfg = s.cfg := rfl
@[simp] theorem State.complete_regs (s : State) (npc : U24) :
    (s.complete npc).regs = s.regs := rfl
@[simp] theorem State.complete_pc (s : State) (npc : U24) :
    (s.complete npc).pc = npc := rfl
@[simp] theorem State.complete_sp (s : State) (npc : U24) :
    (s.complete npc).sp = s.sp := rfl
@[simp] theorem State.complete_zero (s : State) (npc : U24) :
    (s.complete npc).zero = s.zero := rfl
@[simp] theorem State.complete_carry (s : State) (npc : U24) :
    (s.complete npc).carry = s.carry := rfl
@[simp] theorem State.complete_engine (s : State) (npc : U24) :
    (s.complete npc).engine = s.engine := rfl
@[simp] theorem State.complete_fault (s : State) (npc : U24) :
    (s.complete npc).fault = s.fault := rfl
@[simp] theorem State.complete_icount (s : State) (npc : U24) :
    (s.complete npc).icount = (s.icount + 1) % 2 ^ s.cfg.icountBits := rfl
@[simp] theorem State.complete_mem (s : State) (npc : U24) :
    (s.complete npc).mem = s.mem := rfl

/-! ## `State.setFlags` -/

@[simp] theorem State.setFlags_cfg {w : Nat} (s : State) (v : Val w) (c : Bool) :
    (s.setFlags v c).cfg = s.cfg := rfl
@[simp] theorem State.setFlags_regs {w : Nat} (s : State) (v : Val w) (c : Bool) :
    (s.setFlags v c).regs = s.regs := rfl
@[simp] theorem State.setFlags_pc {w : Nat} (s : State) (v : Val w) (c : Bool) :
    (s.setFlags v c).pc = s.pc := rfl
@[simp] theorem State.setFlags_sp {w : Nat} (s : State) (v : Val w) (c : Bool) :
    (s.setFlags v c).sp = s.sp := rfl
@[simp] theorem State.setFlags_zero {w : Nat} (s : State) (v : Val w) (c : Bool) :
    (s.setFlags v c).zero = isZero v := rfl
@[simp] theorem State.setFlags_carry {w : Nat} (s : State) (v : Val w) (c : Bool) :
    (s.setFlags v c).carry = c := rfl
@[simp] theorem State.setFlags_engine {w : Nat} (s : State) (v : Val w) (c : Bool) :
    (s.setFlags v c).engine = s.engine := rfl
@[simp] theorem State.setFlags_fault {w : Nat} (s : State) (v : Val w) (c : Bool) :
    (s.setFlags v c).fault = s.fault := rfl
@[simp] theorem State.setFlags_icount {w : Nat} (s : State) (v : Val w) (c : Bool) :
    (s.setFlags v c).icount = s.icount := rfl
@[simp] theorem State.setFlags_mem {w : Nat} (s : State) (v : Val w) (c : Bool) :
    (s.setFlags v c).mem = s.mem := rfl

/-! ## `State.setReg` -/

@[simp] theorem State.setReg_cfg (s : State) (r : Reg) (w : Nat) (v : Val w) :
    (s.setReg r w v).cfg = s.cfg := rfl
@[simp] theorem State.setReg_regs (s : State) (r : Reg) (w : Nat) (v : Val w) :
    (s.setReg r w v).regs = writeCells s.regs r.toNat (toBytes w v) := rfl
@[simp] theorem State.setReg_pc (s : State) (r : Reg) (w : Nat) (v : Val w) :
    (s.setReg r w v).pc = s.pc := rfl
@[simp] theorem State.setReg_sp (s : State) (r : Reg) (w : Nat) (v : Val w) :
    (s.setReg r w v).sp = s.sp := rfl
@[simp] theorem State.setReg_zero (s : State) (r : Reg) (w : Nat) (v : Val w) :
    (s.setReg r w v).zero = s.zero := rfl
@[simp] theorem State.setReg_carry (s : State) (r : Reg) (w : Nat) (v : Val w) :
    (s.setReg r w v).carry = s.carry := rfl
@[simp] theorem State.setReg_engine (s : State) (r : Reg) (w : Nat) (v : Val w) :
    (s.setReg r w v).engine = s.engine := rfl
@[simp] theorem State.setReg_fault (s : State) (r : Reg) (w : Nat) (v : Val w) :
    (s.setReg r w v).fault = s.fault := rfl
@[simp] theorem State.setReg_icount (s : State) (r : Reg) (w : Nat) (v : Val w) :
    (s.setReg r w v).icount = s.icount := rfl
@[simp] theorem State.setReg_mem (s : State) (r : Reg) (w : Nat) (v : Val w) :
    (s.setReg r w v).mem = s.mem := rfl

/-! ## `State.memWrite` -/

@[simp] theorem State.memWrite_cfg (s : State) (a : U24) (n : Nat) (v : Val n) :
    (s.memWrite a n v).cfg = s.cfg := rfl
@[simp] theorem State.memWrite_regs (s : State) (a : U24) (n : Nat) (v : Val n) :
    (s.memWrite a n v).regs = s.regs := rfl
@[simp] theorem State.memWrite_pc (s : State) (a : U24) (n : Nat) (v : Val n) :
    (s.memWrite a n v).pc = s.pc := rfl
@[simp] theorem State.memWrite_sp (s : State) (a : U24) (n : Nat) (v : Val n) :
    (s.memWrite a n v).sp = s.sp := rfl
@[simp] theorem State.memWrite_zero (s : State) (a : U24) (n : Nat) (v : Val n) :
    (s.memWrite a n v).zero = s.zero := rfl
@[simp] theorem State.memWrite_carry (s : State) (a : U24) (n : Nat) (v : Val n) :
    (s.memWrite a n v).carry = s.carry := rfl
@[simp] theorem State.memWrite_engine (s : State) (a : U24) (n : Nat) (v : Val n) :
    (s.memWrite a n v).engine = s.engine := rfl
@[simp] theorem State.memWrite_fault (s : State) (a : U24) (n : Nat) (v : Val n) :
    (s.memWrite a n v).fault = s.fault := rfl
@[simp] theorem State.memWrite_icount (s : State) (a : U24) (n : Nat) (v : Val n) :
    (s.memWrite a n v).icount = s.icount := rfl
@[simp] theorem State.memWrite_mem (s : State) (a : U24) (n : Nat) (v : Val n) :
    (s.memWrite a n v).mem = s.mem.writeBytes a (toBytes n v) := rfl

/-! ## `State.enter` -/

@[simp] theorem State.enter_cfg (s : State) : s.enter.cfg = s.cfg := by
  unfold State.enter; split <;> rfl
@[simp] theorem State.enter_regs (s : State) : s.enter.regs = s.regs := by
  unfold State.enter; split <;> rfl
@[simp] theorem State.enter_pc (s : State) : s.enter.pc = s.pc := by
  unfold State.enter; split <;> rfl
@[simp] theorem State.enter_sp (s : State) : s.enter.sp = s.sp := by
  unfold State.enter; split <;> rfl
@[simp] theorem State.enter_zero (s : State) : s.enter.zero = s.zero := by
  unfold State.enter; split <;> rfl
@[simp] theorem State.enter_carry (s : State) : s.enter.carry = s.carry := by
  unfold State.enter; split <;> rfl
@[simp] theorem State.enter_fault (s : State) : s.enter.fault = s.fault := by
  unfold State.enter; split <;> rfl
@[simp] theorem State.enter_icount (s : State) : s.enter.icount = s.icount := by
  unfold State.enter; split <;> rfl
@[simp] theorem State.enter_mem (s : State) : s.enter.mem = s.mem := by
  unfold State.enter; split <;> rfl

theorem State.enter_engine_of_idle {s : State} (h : s.engine = .idle) : s.enter.engine = .running := by
  simp [State.enter, h]

theorem State.enter_of_running {s : State} (h : s.engine = .running) : s.enter = s := by
  simp [State.enter, h]

theorem State.enter_engine_of_enabled {s : State} (h : s.enabled = true) : s.enter.engine = .running := by
  cases e : s.engine <;> simp_all [State.enter, State.enabled]

/-! ## `State.takeTrap` -/

@[simp] theorem State.takeTrap_eq (s : State) (t : Trap) : s.takeTrap t = s.raise t.reason t.code t.addr := rfl

/-! ## Reads that depend on one field only -/

@[simp] theorem State.raise_cell (s : State) (reason : FaultReason) (code : Option Code) (addr : Option U24) (i : Nat) :
    (s.raise reason code addr).cell i = s.cell i := rfl
@[simp] theorem State.raise_reg (s : State) (reason : FaultReason) (code : Option Code) (addr : Option U24) (q : Reg) (m : Nat) :
    (s.raise reason code addr).reg q m = s.reg q m := rfl
@[simp] theorem State.raise_byteAt (s : State) (reason : FaultReason) (code : Option Code) (addr : Option U24) (x : U24) :
    (s.raise reason code addr).byteAt x = s.byteAt x := rfl
@[simp] theorem State.raise_memRead (s : State) (reason : FaultReason) (code : Option Code) (addr : Option U24) (x : U24) (m : Nat) :
    (s.raise reason code addr).memRead x m = s.memRead x m := rfl
@[simp] theorem State.raise_inMem (s : State) (reason : FaultReason) (code : Option Code) (addr : Option U24) (x : U24) (m : Nat) :
    (s.raise reason code addr).inMem x m = s.inMem x m := rfl
@[simp] theorem State.raise_firstBad (s : State) (reason : FaultReason) (code : Option Code) (addr : Option U24) (x : U24) (m : Nat) :
    (s.raise reason code addr).firstBad x m = s.firstBad x m := rfl
@[simp] theorem State.complete_cell (s : State) (npc : U24) (i : Nat) :
    (s.complete npc).cell i = s.cell i := rfl
@[simp] theorem State.complete_reg (s : State) (npc : U24) (q : Reg) (m : Nat) :
    (s.complete npc).reg q m = s.reg q m := rfl
@[simp] theorem State.complete_byteAt (s : State) (npc : U24) (x : U24) :
    (s.complete npc).byteAt x = s.byteAt x := rfl
@[simp] theorem State.complete_memRead (s : State) (npc : U24) (x : U24) (m : Nat) :
    (s.complete npc).memRead x m = s.memRead x m := rfl
@[simp] theorem State.complete_inMem (s : State) (npc : U24) (x : U24) (m : Nat) :
    (s.complete npc).inMem x m = s.inMem x m := rfl
@[simp] theorem State.complete_firstBad (s : State) (npc : U24) (x : U24) (m : Nat) :
    (s.complete npc).firstBad x m = s.firstBad x m := rfl
@[simp] theorem State.setFlags_cell {w : Nat} (s : State) (v : Val w) (c : Bool) (i : Nat) :
    (s.setFlags v c).cell i = s.cell i := rfl
@[simp] theorem State.setFlags_reg {w : Nat} (s : State) (v : Val w) (c : Bool) (q : Reg) (m : Nat) :
    (s.setFlags v c).reg q m = s.reg q m := rfl
@[simp] theorem State.setFlags_byteAt {w : Nat} (s : State) (v : Val w) (c : Bool) (x : U24) :
    (s.setFlags v c).byteAt x = s.byteAt x := rfl
@[simp] theorem State.setFlags_memRead {w : Nat} (s : State) (v : Val w) (c : Bool) (x : U24) (m : Nat) :
    (s.setFlags v c).memRead x m = s.memRead x m := rfl
@[simp] theorem State.setFlags_inMem {w : Nat} (s : State) (v : Val w) (c : Bool) (x : U24) (m : Nat) :
    (s.setFlags v c).inMem x m = s.inMem x m := rfl
@[simp] theorem State.setFlags_firstBad {w : Nat} (s : State) (v : Val w) (c : Bool) (x : U24) (m : Nat) :
    (s.setFlags v c).firstBad x m = s.firstBad x m := rfl
@[simp] theorem State.setReg_byteAt (s : State) (r : Reg) (w : Nat) (v : Val w) (x : U24) :
    (s.setReg r w v).byteAt x = s.byteAt x := rfl
@[simp] theorem State.setReg_memRead (s : State) (r : Reg) (w : Nat) (v : Val w) (x : U24) (m : Nat) :
    (s.setReg r w v).memRead x m = s.memRead x m := rfl
@[simp] theorem State.setReg_inMem (s : State) (r : Reg) (w : Nat) (v : Val w) (x : U24) (m : Nat) :
    (s.setReg r w v).inMem x m = s.inMem x m := rfl
@[simp] theorem State.setReg_firstBad (s : State) (r : Reg) (w : Nat) (v : Val w) (x : U24) (m : Nat) :
    (s.setReg r w v).firstBad x m = s.firstBad x m := rfl
@[simp] theorem State.memWrite_cell (s : State) (a : U24) (n : Nat) (v : Val n) (i : Nat) :
    (s.memWrite a n v).cell i = s.cell i := rfl
@[simp] theorem State.memWrite_reg (s : State) (a : U24) (n : Nat) (v : Val n) (q : Reg) (m : Nat) :
    (s.memWrite a n v).reg q m = s.reg q m := rfl
@[simp] theorem State.memWrite_inMem (s : State) (a : U24) (n : Nat) (v : Val n) (x : U24) (m : Nat) :
    (s.memWrite a n v).inMem x m = s.inMem x m := rfl
@[simp] theorem State.memWrite_firstBad (s : State) (a : U24) (n : Nat) (v : Val n) (x : U24) (m : Nat) :
    (s.memWrite a n v).firstBad x m = s.firstBad x m := rfl
@[simp] theorem State.enter_cell (s : State) (i : Nat) : s.enter.cell i = s.cell i := by
  unfold State.enter; split <;> rfl
@[simp] theorem State.enter_byteAt (s : State) (i : U24) : s.enter.byteAt i = s.byteAt i := by
  unfold State.enter; split <;> rfl
@[simp] theorem State.enter_inMem (s : State) (x : U24) (m : Nat) : s.enter.inMem x m = s.inMem x m := by
  unfold State.enter; split <;> rfl
@[simp] theorem State.enter_firstBad (s : State) (x : U24) (m : Nat) : s.enter.firstBad x m = s.firstBad x m := by
  unfold State.enter; split <;> rfl
@[simp] theorem State.enter_readBytes (s : State) (x : U24) (m : Nat) : s.enter.readBytes x m = s.readBytes x m := by
  unfold State.enter; split <;> rfl
@[simp] theorem State.enter_memRead (s : State) (x : U24) (m : Nat) : s.enter.memRead x m = s.memRead x m := by
  unfold State.enter; split <;> rfl
@[simp] theorem State.enter_opcodeAt (s : State) : s.enter.opcodeAt = s.opcodeAt := by
  unfold State.enter; split <;> rfl
@[simp] theorem State.enter_operandPc (s : State) : s.enter.operandPc = s.operandPc := by
  unfold State.enter; split <;> rfl
@[simp] theorem State.enter_fetch (s : State) : s.enter.fetch = s.fetch := by
  unfold State.enter; split <;> rfl

end Sys2Proof.Machine
end

