-- ==== Sys2Proof/Laws/Registers.lean ====
section
/-! SUPPORT. Register views and memory accesses of the state: what a read gives after a write (10_state R103,
20_memory R205, R206). -/

namespace Sys2Proof.Machine

/-- The cell at j after bytes are written from cell i on (10_state R103). -/
theorem getD_writeCells (regs : Vector Byte 9) (i j : Nat) (bs : List Byte) :
    (writeCells regs i bs)[j]?.getD 0#8 =
      if h : i ≤ j ∧ j < i + bs.length ∧ j < 9 then bs[j - i] else regs[j]?.getD 0#8 := by
  induction bs generalizing regs i with
  | nil =>
    have : ¬(i ≤ j ∧ j < i + ([] : List Byte).length ∧ j < 9) := by simp; omega
    rw [dif_neg this]; rfl
  | cons b bs ih =>
    rw [writeCells, ih]
    by_cases hj : i = j
    · subst hj
      by_cases h9 : i < 9
      · simp [h9]
      · simp [h9]
    · by_cases h : i + 1 ≤ j ∧ j < i + 1 + bs.length ∧ j < 9
      · have h' : i ≤ j ∧ j < i + (b :: bs).length ∧ j < 9 := by simp only [List.length_cons]; omega
        rw [dif_pos h, dif_pos h', List.getElem_cons, dif_neg (by omega)]
        congr 1
      · have h' : ¬(i ≤ j ∧ j < i + (b :: bs).length ∧ j < 9) := by simp only [List.length_cons]; omega
        rw [dif_neg h, dif_neg h', Vector.getElem?_setIfInBounds_ne hj]

/-- The bytes of a view. -/
def State.viewBytes (s : State) (r : Reg) (w : Nat) : List Byte :=
  (List.range w).map (fun k => s.cell (r.toNat + k))

theorem State.reg_eq (s : State) (r : Reg) (w : Nat) : s.reg r w = ofBytes w (s.viewBytes r w) := rfl

@[simp] theorem State.length_viewBytes (s : State) (r : Reg) (w : Nat) : (s.viewBytes r w).length = w := by
  simp [State.viewBytes]

theorem viewOk_iff (w : Nat) (r : Reg) : viewOk w r = true ↔ r.toNat + w ≤ 9 := decide_eq_true_iff

/-- A cell of the view just written (10_state R103). -/
theorem State.cell_setReg_inside {s : State} {r : Reg} {w : Nat} {v : Val w} (h : viewOk w r = true) {k : Nat}
    (hk : k < w) : (s.setReg r w v).cell (r.toNat + k) = (toBytes w v)[k]'(by simpa using hk) := by
  have h9 := (viewOk_iff w r).1 h
  rw [State.cell, State.setReg_regs, getD_writeCells,
    dif_pos ⟨by omega, by rw [length_toBytes]; omega, by omega⟩]
  congr 1
  omega

/-- A cell outside the view just written is as before (10_state R103). -/
theorem State.cell_setReg_outside {s : State} {r : Reg} {w : Nat} {v : Val w} {j : Nat}
    (h : j < r.toNat ∨ r.toNat + w ≤ j) : (s.setReg r w v).cell j = s.cell j := by
  rw [State.cell, State.setReg_regs, getD_writeCells, dif_neg (by rw [length_toBytes]; omega)]
  rfl

/-- A view reads back what was written to it (10_state R103). -/
theorem State.reg_setReg {s : State} {r : Reg} {w : Nat} {v : Val w} (h : viewOk w r = true) :
    (s.setReg r w v).reg r w = v := by
  have hb : (s.setReg r w v).viewBytes r w = toBytes w v := by
    apply List.ext_getElem (by simp)
    intro k h1 h2
    simp only [State.viewBytes, List.getElem_map, List.getElem_range]
    exact State.cell_setReg_inside h (by simpa using h2)
  rw [State.reg_eq, hb, ofBytes_toBytes]

/-- The addresses of an access, each as a sum (20_memory R203). -/
theorem accessAddrs_eq (a : U24) (n : Nat) :
    accessAddrs a n = (List.range n).map (fun k => a + BitVec.ofNat 24 k) := by
  simp [accessAddrs, add24_eq, u24]

/-- `inMem` in the words of 20_memory R204. -/
theorem State.inMem_iff (s : State) (a : U24) (n : Nat) :
    s.inMem a n = true ↔ ∀ k, k < n → (a + BitVec.ofNat 24 k).toNat < s.cfg.memSize.1 := by
  simp [State.inMem, accessAddrs_eq, State.backed]

/-- An access that is not backed has a first bad address (20_memory R204). -/
theorem State.firstBad_isSome {s : State} {a : U24} {n : Nat} (h : s.inMem a n = false) :
    (s.firstBad a n).isSome = true := by
  have h' : ¬(∀ x ∈ accessAddrs a n, s.backed x = true) := by
    rw [← List.all_eq_true]
    simpa [State.inMem] using h
  rw [State.firstBad, List.find?_isSome]
  simpa using h'

@[simp] theorem State.length_readBytes (s : State) (a : U24) (n : Nat) : (s.readBytes a n).length = n := by
  simp [State.readBytes, accessAddrs]

/-- A byte outside a write reads as before (20_memory R206). -/
theorem State.byteAt_memWrite_outside {s : State} {a b : U24} {n : Nat} {v : Val n}
    (h : ∀ k, k < n → b ≠ a + BitVec.ofNat 24 k) : (s.memWrite a n v).byteAt b = s.byteAt b :=
  Memory.read_writeBytes_of_ne _ _ _ _ (by simpa using h)

/-- Byte k of a write is byte k of the value (20_memory R206). -/
theorem State.byteAt_memWrite_inside {s : State} {a : U24} {n : Nat} {v : Val n} (hn : n ≤ 2 ^ 24) {k : Nat}
    (hk : k < n) : (s.memWrite a n v).byteAt (a + BitVec.ofNat 24 k) = (toBytes n v)[k]'(by simpa using hk) :=
  Memory.read_writeBytes _ _ _ (by simpa using hn) k (by simpa using hk)

/-- A read at the address of a write gives the value written (20_memory R205, R206). -/
theorem State.memRead_memWrite {s : State} {a : U24} {n : Nat} {v : Val n} (hn : n ≤ 2 ^ 24) :
    (s.memWrite a n v).memRead a n = v := by
  have hb : (s.memWrite a n v).readBytes a n = toBytes n v := by
    apply List.ext_getElem (by simp)
    intro k h1 h2
    simp only [State.readBytes, accessAddrs_eq, List.map_map, List.getElem_map, List.getElem_range,
      Function.comp_apply]
    exact State.byteAt_memWrite_inside hn (by simpa using h2)
  rw [State.memRead, hb, ofBytes_toBytes]

end Sys2Proof.Machine
end

