-- ==== Sys2Proof/Laws/Ops.lean ====
section
/-! SUPPORT. One lemma for each shared operation that says once everything it can do. -/

namespace Sys2Proof.Machine

/-- Taking a fault writes the engine state and the record and nothing else (60_exceptions R801, R808). -/
theorem takesFault_raise (s : State) (reason : FaultReason) (code : Option Code) (addr : Option U24) :
    TakesFault s (s.raise reason code addr) reason.kind reason code addr :=
  ⟨rfl, rfl, rfl, rfl, rfl, rfl, rfl, rfl, rfl, rfl⟩

/-- Completing an instruction (40_datapath R400). -/
theorem retires_complete {s u : State} (npc : U24) (hi : u.icount = s.icount) (he : u.engine = s.engine)
    (hf : u.fault = s.fault) (hc : u.cfg = s.cfg) : Retires s (u.complete npc) npc :=
  ⟨rfl, by simp [hi, hc], he, hf, hc⟩

/-- `next` as a sum (40_datapath R400). -/
theorem State.nextPc_eq (s : State) (c : Code) : s.nextPc c = s.pc + BitVec.ofNat 24 (codeLength c) := by
  rw [State.nextPc, add24_eq, u24]

/-- The register check answers `done` or the Register fault (30_encoding R308). -/
theorem State.checkViews_cases (s : State) (c : Code) (w : Nat) (rs : List Reg) (done : State) :
    (rs.all (viewOk w) = true ∧ s.checkViews c w rs done = done) ∨
      (rs.all (viewOk w) = false ∧ s.checkViews c w rs done = s.raise .register (some c) none) := by
  unfold State.checkViews
  cases h : rs.all (viewOk w)
  · exact .inr ⟨rfl, by simp⟩
  · exact .inl ⟨rfl, by simp⟩

/-- The access check answers `done` or the fault with the first bad address (20_memory R206). -/
theorem State.checkAccess_cases (s : State) (reason : FaultReason) (c : Code) (a : U24) (n : Nat) (done : State) :
    (s.inMem a n = true ∧ s.checkAccess reason c a n done = done) ∨
      (s.inMem a n = false ∧ s.checkAccess reason c a n done = s.raise reason (some c) (s.firstBad a n)) := by
  unfold State.checkAccess
  cases h : s.inMem a n
  · exact .inr ⟨rfl, by simp⟩
  · exact .inl ⟨rfl, by simp⟩

@[simp] theorem State.checkViews_of_ok {s : State} {c : Code} {w : Nat} {rs : List Reg} {done : State}
    (h : rs.all (viewOk w) = true) : s.checkViews c w rs done = done := by
  rw [State.checkViews, if_pos h]

theorem State.checkViews_of_bad {s : State} {c : Code} {w : Nat} {rs : List Reg} {done : State}
    (h : rs.all (viewOk w) = false) : s.checkViews c w rs done = s.raise .register (some c) none := by
  rw [State.checkViews, if_neg (by simp [h])]

theorem State.checkAccess_of_ok {s : State} {reason : FaultReason} {c : Code} {a : U24} {n : Nat} {done : State}
    (h : s.inMem a n = true) : s.checkAccess reason c a n done = done := by
  rw [State.checkAccess, if_pos h]

theorem State.checkAccess_of_bad {s : State} {reason : FaultReason} {c : Code} {a : U24} {n : Nat} {done : State}
    (h : s.inMem a n = false) : s.checkAccess reason c a n done = s.raise reason (some c) (s.firstBad a n) := by
  rw [State.checkAccess, if_neg (by simp [h])]

/-- The next state of an ALU or move form with its view inside the file (41_arithmetic, 42_bitwise, 43_data_move):
the operation's own result, in the words of `WritesView`. -/
theorem writesView_of_complete {s : State} {w len : Nat} {d : Reg} {v : Val w} {cy : Bool} {c : Code}
    (hd : viewOk w d = true) (hl : codeLength c = len) :
    WritesView (.next (((s.setReg d w v).setFlags v cy).complete (s.nextPc c))) s w len d v.toNat (cy = true) := by
  refine ⟨_, rfl, ?_, ⟨?_, by simp⟩, ?_, rfl, fun _ => rfl, ?_⟩
  · simp [State.reg_setReg hd]
  · simp only [State.complete_zero, State.setFlags_zero, isZero, beq_iff_eq]
    rw [← BitVec.toNat_inj]; simp
  · intro k _ hk
    simpa using State.cell_setReg_outside hk
  · have := retires_complete (s := s) (u := (s.setReg d w v).setFlags v cy) (s.nextPc c) rfl rfl rfl rfl
    rwa [State.nextPc_eq, hl] at *

/-- The next state of CMP and TST, in the words of `WritesFlagsOnly` (R470, R516). -/
theorem writesFlagsOnly_of_complete {s : State} {w : Nat} {v : Val w} {cy : Bool} {c : Code}
    (hl : codeLength c = 3) :
    WritesFlagsOnly (.next ((s.setFlags v cy).complete (s.nextPc c))) s v.toNat (cy = true) := by
  refine ⟨_, rfl, ⟨?_, by simp⟩, fun _ _ => rfl, rfl, fun _ => rfl, ?_⟩
  · simp only [State.complete_zero, State.setFlags_zero, isZero, beq_iff_eq]
    rw [← BitVec.toNat_inj]; simp
  · have := retires_complete (s := s) (u := s.setFlags v cy) (s.nextPc c) rfl rfl rfl rfl
    rwa [State.nextPc_eq, hl] at *

/-- Everything format RR can do when it writes its destination. -/
theorem State.binary_cases (s : State) (c : Code) (w : Nat) (f : Val w → Val w → Val w × Bool) (d r : Reg) :
    (viewOk w d = true ∧ viewOk w r = true ∧
      s.binary c w f d r = ((s.setReg d w (f (s.reg d w) (s.reg r w)).1).setFlags
        (f (s.reg d w) (s.reg r w)).1 (f (s.reg d w) (s.reg r w)).2).complete (s.nextPc c)) ∨
      ((viewOk w d && viewOk w r) = false ∧ s.binary c w f d r = s.raise .register (some c) none) := by
  have h := s.checkViews_cases c w [d, r] (((s.setReg d w (f (s.reg d w) (s.reg r w)).1).setFlags
        (f (s.reg d w) (s.reg r w)).1 (f (s.reg d w) (s.reg r w)).2).complete (s.nextPc c))
  simp only [List.all_cons, List.all_nil, Bool.and_true, Bool.and_eq_true] at h
  rcases h with ⟨⟨h1, h2⟩, h⟩ | ⟨h1, h⟩
  · exact .inl ⟨h1, h2, h⟩
  · exact .inr ⟨h1, h⟩

/-- Everything CMP and TST can do. -/
theorem State.compare_cases (s : State) (c : Code) (w : Nat) (f : Val w → Val w → Val w × Bool) (d r : Reg) :
    (viewOk w d = true ∧ viewOk w r = true ∧
      s.compare c w f d r = (s.setFlags (f (s.reg d w) (s.reg r w)).1 (f (s.reg d w) (s.reg r w)).2).complete
        (s.nextPc c)) ∨
      ((viewOk w d && viewOk w r) = false ∧ s.compare c w f d r = s.raise .register (some c) none) := by
  have h := s.checkViews_cases c w [d, r]
    ((s.setFlags (f (s.reg d w) (s.reg r w)).1 (f (s.reg d w) (s.reg r w)).2).complete (s.nextPc c))
  simp only [List.all_cons, List.all_nil, Bool.and_true, Bool.and_eq_true] at h
  rcases h with ⟨⟨h1, h2⟩, h⟩ | ⟨h1, h⟩
  · exact .inl ⟨h1, h2, h⟩
  · exact .inr ⟨h1, h⟩

/-- Everything INC, DEC and NOT can do. -/
theorem State.unary_cases (s : State) (c : Code) (w : Nat) (f : Val w → Val w × Bool) (r : Reg) :
    (viewOk w r = true ∧
      s.unary c w f r = ((s.setReg r w (f (s.reg r w)).1).setFlags (f (s.reg r w)).1 (f (s.reg r w)).2).complete
        (s.nextPc c)) ∨
      (viewOk w r = false ∧ s.unary c w f r = s.raise .register (some c) none) := by
  simpa [State.unary] using s.checkViews_cases c w [r]
    (((s.setReg r w (f (s.reg r w)).1).setFlags (f (s.reg r w)).1 (f (s.reg r w)).2).complete (s.nextPc c))

/-- Everything ADDI and LOADI can do. -/
theorem State.immediate_cases (s : State) (c : Code) (w : Nat) (f : Val w → Val w → Val w × Bool) (d : Reg)
    (imm : Val w) :
    (viewOk w d = true ∧
      s.immediate c w f d imm = ((s.setReg d w (f (s.reg d w) imm).1).setFlags (f (s.reg d w) imm).1
        (f (s.reg d w) imm).2).complete (s.nextPc c)) ∨
      (viewOk w d = false ∧ s.immediate c w f d imm = s.raise .register (some c) none) := by
  simpa [State.immediate] using s.checkViews_cases c w [d]
    (((s.setReg d w (f (s.reg d w) imm).1).setFlags (f (s.reg d w) imm).1 (f (s.reg d w) imm).2).complete
      (s.nextPc c))

/-- Everything LOAD can do: its effect, the Data fault, or the Register fault. -/
theorem State.load_cases (s : State) (c : Code) (w : Nat) (d : Reg) (a : U24) :
    (viewOk w d = true ∧ s.inMem a w = true ∧
      s.load c w d a = ((s.setReg d w (s.memRead a w)).setFlags (s.memRead a w) false).complete (s.nextPc c)) ∨
    (viewOk w d = true ∧ s.inMem a w = false ∧
      s.load c w d a = s.raise .data (some c) (s.firstBad a w)) ∨
    (viewOk w d = false ∧ s.load c w d a = s.raise .register (some c) none) := by
  cases hv : viewOk w d
  · exact .inr (.inr ⟨rfl, State.checkViews_of_bad (by simp [hv])⟩)
  · rcases s.checkAccess_cases .data c a w
      (((s.setReg d w (s.memRead a w)).setFlags (s.memRead a w) false).complete (s.nextPc c)) with ⟨hm, h⟩ | ⟨hm, h⟩
    · exact .inl ⟨rfl, hm, (State.checkViews_of_ok (by simp [hv])).trans h⟩
    · exact .inr (.inl ⟨rfl, hm, (State.checkViews_of_ok (by simp [hv])).trans h⟩)

/-- Everything STORE can do: its effect, the Data fault, or the Register fault. -/
theorem State.store_cases (s : State) (c : Code) (w : Nat) (d : Reg) (a : U24) :
    (viewOk w d = true ∧ s.inMem a w = true ∧
      s.store c w d a = ((s.memWrite a w (s.reg d w)).setFlags (s.reg d w) false).complete (s.nextPc c)) ∨
    (viewOk w d = true ∧ s.inMem a w = false ∧
      s.store c w d a = s.raise .data (some c) (s.firstBad a w)) ∨
    (viewOk w d = false ∧ s.store c w d a = s.raise .register (some c) none) := by
  cases hv : viewOk w d
  · exact .inr (.inr ⟨rfl, State.checkViews_of_bad (by simp [hv])⟩)
  · rcases s.checkAccess_cases .data c a w
      (((s.memWrite a w (s.reg d w)).setFlags (s.reg d w) false).complete (s.nextPc c)) with ⟨hm, h⟩ | ⟨hm, h⟩
    · exact .inl ⟨rfl, hm, (State.checkViews_of_ok (by simp [hv])).trans h⟩
    · exact .inr (.inl ⟨rfl, hm, (State.checkViews_of_ok (by simp [hv])).trans h⟩)

/-- Everything a push can do: the item below `sp`, or the Stack fault (46_call_stack R702). -/
theorem State.pushThen_cases (s : State) (c : Code) (n : Nat) (v : Val n) (npc : U24) :
    (s.inMem (s.pushAddr n) n = true ∧
      s.pushThen c n v npc = ({ s.memWrite (s.pushAddr n) n v with sp := s.pushAddr n } : State).complete npc) ∨
    (s.inMem (s.pushAddr n) n = false ∧
      s.pushThen c n v npc = s.raise .stack (some c) (s.firstBad (s.pushAddr n) n)) :=
  s.checkAccess_cases .stack c (s.pushAddr n) n _

/-- Everything POP can do: its effect, the Stack fault, or the Register fault (46_call_stack R708). -/
theorem State.pop_cases (s : State) (c : Code) (w : Nat) (r : Reg) :
    (viewOk w r = true ∧ s.inMem s.sp w = true ∧
      s.pop c w r = ({ s.setReg r w (s.memRead s.sp w) with sp := s.popSp w } : State).complete (s.nextPc c)) ∨
    (viewOk w r = true ∧ s.inMem s.sp w = false ∧
      s.pop c w r = s.raise .stack (some c) (s.firstBad s.sp w)) ∨
    (viewOk w r = false ∧ s.pop c w r = s.raise .register (some c) none) := by
  cases hv : viewOk w r
  · exact .inr (.inr ⟨rfl, State.checkViews_of_bad (by simp [hv])⟩)
  · rcases s.checkAccess_cases .stack c s.sp w
      (({ s.setReg r w (s.memRead s.sp w) with sp := s.popSp w } : State).complete (s.nextPc c)) with
      ⟨hm, h⟩ | ⟨hm, h⟩
    · exact .inl ⟨rfl, hm, (State.checkViews_of_ok (by simp [hv])).trans h⟩
    · exact .inr (.inl ⟨rfl, hm, (State.checkViews_of_ok (by simp [hv])).trans h⟩)

/-- Everything RTS can do: its effect or the Stack fault (46_call_stack R701). -/
theorem State.ret_cases (s : State) (c : Code) :
    (s.inMem s.sp 3 = true ∧
      s.ret c = ({ s with sp := s.popSp 3 } : State).complete (s.memRead s.sp 3)) ∨
    (s.inMem s.sp 3 = false ∧ s.ret c = s.raise .stack (some c) (s.firstBad s.sp 3)) :=
  s.checkAccess_cases .stack c s.sp 3 _

/-- Everything a fetch can answer: one case per check of 40_datapath R400, in order, and the decoded instruction. -/
theorem State.fetch_cases (s : State) :
    (s.inMem s.pc 2 = false ∧ s.fetch = .error ⟨.fetch, none, s.firstBad s.pc 2⟩) ∨
    (s.inMem s.pc 2 = true ∧ lookup s.opcodeAt = none ∧ s.fetch = .error ⟨.unknown, some s.opcodeAt, none⟩) ∨
    ∃ row, s.inMem s.pc 2 = true ∧ lookup s.opcodeAt = some row ∧
      ((s.inMem s.operandPc (operandCount s.opcodeAt) = false ∧
          s.fetch = .error ⟨.truncated, some s.opcodeAt, s.firstBad s.operandPc (operandCount s.opcodeAt)⟩) ∨
       (s.inMem s.operandPc (operandCount s.opcodeAt) = true ∧
          ((∃ e, decodeOperands row.shape (s.readBytes s.operandPc (operandCount s.opcodeAt)) = .error e ∧
              s.fetch = .error ⟨operandReason e, some s.opcodeAt, none⟩) ∨
           (∃ i, decodeOperands row.shape (s.readBytes s.operandPc (operandCount s.opcodeAt)) = .ok i ∧
              s.fetch = .ok i)))) := by
  unfold State.fetch
  cases h1 : s.inMem s.pc 2
  · exact .inl ⟨rfl, by simp⟩
  · cases h2 : lookup s.opcodeAt with
    | none => exact .inr (.inl ⟨rfl, rfl, by simp⟩)
    | some row =>
      refine .inr (.inr ⟨row, rfl, rfl, ?_⟩)
      cases h3 : s.inMem s.operandPc (operandCount s.opcodeAt)
      · exact .inl ⟨rfl, by simp⟩
      · refine .inr ⟨rfl, ?_⟩
        cases h4 : decodeOperands row.shape (s.readBytes s.operandPc (operandCount s.opcodeAt)) with
        | error e => exact .inl ⟨e, rfl, by simp [h4]⟩
        | ok i => exact .inr ⟨i, rfl, by simp [h4]⟩

/-- Everything a step can answer (10_state R111, 40_datapath R400). -/
theorem step_cases (s : State) :
    (s.enabled = false ∧ step s = .next s) ∨
    (s.enabled = true ∧ ∃ i, s.fetch = .ok i ∧ step s = exec i s.enter) ∨
    (s.enabled = true ∧ ∃ e, s.fetch = .error e ∧ step s = .next (s.enter.raise e.reason e.code e.addr)) := by
  unfold step State.hostStep State.cycle
  cases h : s.enabled
  · exact .inl ⟨rfl, by simp⟩
  · rw [State.enter_fetch]
    cases hf : s.fetch with
    | ok i => exact .inr (.inl ⟨rfl, i, rfl, by simp⟩)
    | error e => exact .inr (.inr ⟨rfl, e, rfl, by simp⟩)

end Sys2Proof.Machine
end

