-- ==== Sys2Proof/Laws/PerInstr.lean ====
section
/-! SUPPORT. Statements made per instruction. `Encoding`: the operation's code is in the opcode map, and its operand
bytes are as many as the count field of the code says (30_encoding R301, R302, R312). -/

namespace Sys2Proof.Laws

/-- The instruction's code is a row of the opcode map, and the instruction has `code[11:9]` operand bytes. -/
def Encoding.Statement (i : Instr) : Prop :=
  (lookup i.code).isSome = true ∧ i.operands.length = operandCount i.code

theorem Encoding.add1 (d s : Reg) : Encoding.Statement (.add1 d s) :=
  ⟨rfl, by simp [Instr.operands, Instr.code, operandCount]⟩
theorem Encoding.add2 (d s : Reg) : Encoding.Statement (.add2 d s) :=
  ⟨rfl, by simp [Instr.operands, Instr.code, operandCount]⟩
theorem Encoding.add3 (d s : Reg) : Encoding.Statement (.add3 d s) :=
  ⟨rfl, by simp [Instr.operands, Instr.code, operandCount]⟩
theorem Encoding.sub1 (d s : Reg) : Encoding.Statement (.sub1 d s) :=
  ⟨rfl, by simp [Instr.operands, Instr.code, operandCount]⟩
theorem Encoding.sub2 (d s : Reg) : Encoding.Statement (.sub2 d s) :=
  ⟨rfl, by simp [Instr.operands, Instr.code, operandCount]⟩
theorem Encoding.sub3 (d s : Reg) : Encoding.Statement (.sub3 d s) :=
  ⟨rfl, by simp [Instr.operands, Instr.code, operandCount]⟩
theorem Encoding.inc1 (r : Reg) : Encoding.Statement (.inc1 r) :=
  ⟨rfl, by simp [Instr.operands, Instr.code, operandCount]⟩
theorem Encoding.inc2 (r : Reg) : Encoding.Statement (.inc2 r) :=
  ⟨rfl, by simp [Instr.operands, Instr.code, operandCount]⟩
theorem Encoding.inc3 (r : Reg) : Encoding.Statement (.inc3 r) :=
  ⟨rfl, by simp [Instr.operands, Instr.code, operandCount]⟩
theorem Encoding.dec1 (r : Reg) : Encoding.Statement (.dec1 r) :=
  ⟨rfl, by simp [Instr.operands, Instr.code, operandCount]⟩
theorem Encoding.dec2 (r : Reg) : Encoding.Statement (.dec2 r) :=
  ⟨rfl, by simp [Instr.operands, Instr.code, operandCount]⟩
theorem Encoding.dec3 (r : Reg) : Encoding.Statement (.dec3 r) :=
  ⟨rfl, by simp [Instr.operands, Instr.code, operandCount]⟩
theorem Encoding.addi1 (d : Reg) (imm : BitVec 8) : Encoding.Statement (.addi1 d imm) :=
  ⟨rfl, by simp [Instr.operands, Instr.code, operandCount]⟩
theorem Encoding.addi2 (d : Reg) (imm : BitVec 16) : Encoding.Statement (.addi2 d imm) :=
  ⟨rfl, by simp [Instr.operands, Instr.code, operandCount]⟩
theorem Encoding.addi3 (d : Reg) (imm : BitVec 24) : Encoding.Statement (.addi3 d imm) :=
  ⟨rfl, by simp [Instr.operands, Instr.code, operandCount]⟩
theorem Encoding.and1 (d s : Reg) : Encoding.Statement (.and1 d s) :=
  ⟨rfl, by simp [Instr.operands, Instr.code, operandCount]⟩
theorem Encoding.and2 (d s : Reg) : Encoding.Statement (.and2 d s) :=
  ⟨rfl, by simp [Instr.operands, Instr.code, operandCount]⟩
theorem Encoding.and3 (d s : Reg) : Encoding.Statement (.and3 d s) :=
  ⟨rfl, by simp [Instr.operands, Instr.code, operandCount]⟩
theorem Encoding.or1 (d s : Reg) : Encoding.Statement (.or1 d s) :=
  ⟨rfl, by simp [Instr.operands, Instr.code, operandCount]⟩
theorem Encoding.or2 (d s : Reg) : Encoding.Statement (.or2 d s) :=
  ⟨rfl, by simp [Instr.operands, Instr.code, operandCount]⟩
theorem Encoding.or3 (d s : Reg) : Encoding.Statement (.or3 d s) :=
  ⟨rfl, by simp [Instr.operands, Instr.code, operandCount]⟩
theorem Encoding.xor1 (d s : Reg) : Encoding.Statement (.xor1 d s) :=
  ⟨rfl, by simp [Instr.operands, Instr.code, operandCount]⟩
theorem Encoding.xor2 (d s : Reg) : Encoding.Statement (.xor2 d s) :=
  ⟨rfl, by simp [Instr.operands, Instr.code, operandCount]⟩
theorem Encoding.xor3 (d s : Reg) : Encoding.Statement (.xor3 d s) :=
  ⟨rfl, by simp [Instr.operands, Instr.code, operandCount]⟩
theorem Encoding.not1 (r : Reg) : Encoding.Statement (.not1 r) :=
  ⟨rfl, by simp [Instr.operands, Instr.code, operandCount]⟩
theorem Encoding.not2 (r : Reg) : Encoding.Statement (.not2 r) :=
  ⟨rfl, by simp [Instr.operands, Instr.code, operandCount]⟩
theorem Encoding.not3 (r : Reg) : Encoding.Statement (.not3 r) :=
  ⟨rfl, by simp [Instr.operands, Instr.code, operandCount]⟩
theorem Encoding.cmp1 (d s : Reg) : Encoding.Statement (.cmp1 d s) :=
  ⟨rfl, by simp [Instr.operands, Instr.code, operandCount]⟩
theorem Encoding.cmp2 (d s : Reg) : Encoding.Statement (.cmp2 d s) :=
  ⟨rfl, by simp [Instr.operands, Instr.code, operandCount]⟩
theorem Encoding.cmp3 (d s : Reg) : Encoding.Statement (.cmp3 d s) :=
  ⟨rfl, by simp [Instr.operands, Instr.code, operandCount]⟩
theorem Encoding.tst1 (d s : Reg) : Encoding.Statement (.tst1 d s) :=
  ⟨rfl, by simp [Instr.operands, Instr.code, operandCount]⟩
theorem Encoding.tst2 (d s : Reg) : Encoding.Statement (.tst2 d s) :=
  ⟨rfl, by simp [Instr.operands, Instr.code, operandCount]⟩
theorem Encoding.tst3 (d s : Reg) : Encoding.Statement (.tst3 d s) :=
  ⟨rfl, by simp [Instr.operands, Instr.code, operandCount]⟩
theorem Encoding.mov1 (d s : Reg) : Encoding.Statement (.mov1 d s) :=
  ⟨rfl, by simp [Instr.operands, Instr.code, operandCount]⟩
theorem Encoding.mov2 (d s : Reg) : Encoding.Statement (.mov2 d s) :=
  ⟨rfl, by simp [Instr.operands, Instr.code, operandCount]⟩
theorem Encoding.mov3 (d s : Reg) : Encoding.Statement (.mov3 d s) :=
  ⟨rfl, by simp [Instr.operands, Instr.code, operandCount]⟩
theorem Encoding.loadi1 (d : Reg) (imm : BitVec 8) : Encoding.Statement (.loadi1 d imm) :=
  ⟨rfl, by simp [Instr.operands, Instr.code, operandCount]⟩
theorem Encoding.loadi2 (d : Reg) (imm : BitVec 16) : Encoding.Statement (.loadi2 d imm) :=
  ⟨rfl, by simp [Instr.operands, Instr.code, operandCount]⟩
theorem Encoding.loadi3 (d : Reg) (imm : BitVec 24) : Encoding.Statement (.loadi3 d imm) :=
  ⟨rfl, by simp [Instr.operands, Instr.code, operandCount]⟩
theorem Encoding.load1 (d : Reg) (addr : U24) : Encoding.Statement (.load1 d addr) :=
  ⟨rfl, by simp [Instr.operands, Instr.code, operandCount]⟩
theorem Encoding.load2 (d : Reg) (addr : U24) : Encoding.Statement (.load2 d addr) :=
  ⟨rfl, by simp [Instr.operands, Instr.code, operandCount]⟩
theorem Encoding.load3 (d : Reg) (addr : U24) : Encoding.Statement (.load3 d addr) :=
  ⟨rfl, by simp [Instr.operands, Instr.code, operandCount]⟩
theorem Encoding.store1 (d : Reg) (addr : U24) : Encoding.Statement (.store1 d addr) :=
  ⟨rfl, by simp [Instr.operands, Instr.code, operandCount]⟩
theorem Encoding.store2 (d : Reg) (addr : U24) : Encoding.Statement (.store2 d addr) :=
  ⟨rfl, by simp [Instr.operands, Instr.code, operandCount]⟩
theorem Encoding.store3 (d : Reg) (addr : U24) : Encoding.Statement (.store3 d addr) :=
  ⟨rfl, by simp [Instr.operands, Instr.code, operandCount]⟩
theorem Encoding.push1 (r : Reg) : Encoding.Statement (.push1 r) :=
  ⟨rfl, by simp [Instr.operands, Instr.code, operandCount]⟩
theorem Encoding.push2 (r : Reg) : Encoding.Statement (.push2 r) :=
  ⟨rfl, by simp [Instr.operands, Instr.code, operandCount]⟩
theorem Encoding.push3 (r : Reg) : Encoding.Statement (.push3 r) :=
  ⟨rfl, by simp [Instr.operands, Instr.code, operandCount]⟩
theorem Encoding.pop1 (r : Reg) : Encoding.Statement (.pop1 r) :=
  ⟨rfl, by simp [Instr.operands, Instr.code, operandCount]⟩
theorem Encoding.pop2 (r : Reg) : Encoding.Statement (.pop2 r) :=
  ⟨rfl, by simp [Instr.operands, Instr.code, operandCount]⟩
theorem Encoding.pop3 (r : Reg) : Encoding.Statement (.pop3 r) :=
  ⟨rfl, by simp [Instr.operands, Instr.code, operandCount]⟩
theorem Encoding.jmp (addr : U24) : Encoding.Statement (.jmp addr) :=
  ⟨rfl, by simp [Instr.operands, Instr.code, operandCount]⟩
theorem Encoding.jz (addr : U24) : Encoding.Statement (.jz addr) :=
  ⟨rfl, by simp [Instr.operands, Instr.code, operandCount]⟩
theorem Encoding.jnz (addr : U24) : Encoding.Statement (.jnz addr) :=
  ⟨rfl, by simp [Instr.operands, Instr.code, operandCount]⟩
theorem Encoding.jc (addr : U24) : Encoding.Statement (.jc addr) :=
  ⟨rfl, by simp [Instr.operands, Instr.code, operandCount]⟩
theorem Encoding.jnc (addr : U24) : Encoding.Statement (.jnc addr) :=
  ⟨rfl, by simp [Instr.operands, Instr.code, operandCount]⟩
theorem Encoding.jsr (addr : U24) : Encoding.Statement (.jsr addr) :=
  ⟨rfl, by simp [Instr.operands, Instr.code, operandCount]⟩
theorem Encoding.rts : Encoding.Statement (.rts) :=
  ⟨rfl, by simp [Instr.operands, Instr.code, operandCount]⟩
theorem Encoding.hlt : Encoding.Statement (.hlt) :=
  ⟨rfl, by simp [Instr.operands, Instr.code, operandCount]⟩

end Sys2Proof.Laws
end

