-- ==== Sys2Proof/Tests/Slice0.lean ====
section
/-! SUPPORT. Tests. Words, bytes and expected results are written out from the spec: the encodings from 30_encoding
R300 to R312, the one-step vectors from 95_test_vectors parts 1 to 4. The last section shows, for every statement
with hypotheses, that something meets them. -/

set_option maxRecDepth 4000

namespace Sys2Proof.Tests

open Sys2Proof Sys2Proof.Machine

/-! ## Helpers -/

/-- A Running machine with the bytes of one instruction at `pc`, the cells, flags and memory bytes given, and 0
elsewhere. -/
def start (code : List Byte) (pc sp : U24) (cells : List (Nat × Byte)) (z c : Bool) (bytes : List (Nat × Byte)) :
    State :=
  let mem := bytes.foldl (fun m e => Memory.write m e.1 e.2) []
  let regs := cells.foldl (fun (v : Vector Byte 9) e => v.setIfInBounds e.1 e.2) (Vector.replicate 9 0#8)
  ({ State.reset with engine := .running, pc := pc, sp := sp, regs := regs, zero := z, carry := c, mem := mem } :
    State).pokeBytes pc code

/-- One step from `s` completes: the cells named hold these bytes and every other cell is 0, the flags, `pc` and `sp`
are these, the bytes of memory named are these, and `icount` is 1. -/
def gives (s : State) (cells : List (Nat × Byte)) (z c : Bool) (pc sp : U24) (bytes : List (Nat × Byte)) : Bool :=
  match step s with
  | .next t =>
    (List.range 9).all (fun k => t.cell k == (cells.lookup k).getD 0#8) && t.zero == z && t.carry == c &&
      t.pc == pc && t.sp == sp && bytes.all (fun e => Memory.read t.mem e.1 == e.2) && t.icount == 1
  | _ => false

/-- One step from `s` takes a fault: the engine state and the record change, nothing else. -/
def takes (s : State) (reason : FaultReason) (code : Option Code) (addr : Option U24) : Bool :=
  match step s with
  | .next t => t == { s with engine := .faulted, fault := some ⟨reason.kind, s.pc, code, addr, reason⟩ }
  | _ => false

/-! ## Well-formedness: the check of each register field refuses the first index past the file (R308) -/

theorem test_wf_add : (∀ i ∈ [Instr.add1 9 0, Instr.add1 0 9, Instr.add2 8 0, Instr.add2 0 8, Instr.add3 7 0, Instr.add3 0 7], i.wf = false) ∧
    ∀ i ∈ [Instr.add1 8 8, Instr.add2 7 7, Instr.add3 6 6], i.wf = true := by decide

theorem test_wf_sub : (∀ i ∈ [Instr.sub1 9 0, Instr.sub1 0 9, Instr.sub2 8 0, Instr.sub2 0 8, Instr.sub3 7 0, Instr.sub3 0 7], i.wf = false) ∧
    ∀ i ∈ [Instr.sub1 8 8, Instr.sub2 7 7, Instr.sub3 6 6], i.wf = true := by decide

theorem test_wf_inc : (∀ i ∈ [Instr.inc1 9, Instr.inc2 8, Instr.inc3 7], i.wf = false) ∧
    ∀ i ∈ [Instr.inc1 8, Instr.inc2 7, Instr.inc3 6], i.wf = true := by decide

theorem test_wf_dec : (∀ i ∈ [Instr.dec1 9, Instr.dec2 8, Instr.dec3 7], i.wf = false) ∧
    ∀ i ∈ [Instr.dec1 8, Instr.dec2 7, Instr.dec3 6], i.wf = true := by decide

theorem test_wf_addi : (∀ i ∈ [Instr.addi1 9 0, Instr.addi2 8 0, Instr.addi3 7 0], i.wf = false) ∧
    ∀ i ∈ [Instr.addi1 8 0, Instr.addi2 7 0, Instr.addi3 6 0], i.wf = true := by decide

theorem test_wf_and : (∀ i ∈ [Instr.and1 9 0, Instr.and1 0 9, Instr.and2 8 0, Instr.and2 0 8, Instr.and3 7 0, Instr.and3 0 7], i.wf = false) ∧
    ∀ i ∈ [Instr.and1 8 8, Instr.and2 7 7, Instr.and3 6 6], i.wf = true := by decide

theorem test_wf_or : (∀ i ∈ [Instr.or1 9 0, Instr.or1 0 9, Instr.or2 8 0, Instr.or2 0 8, Instr.or3 7 0, Instr.or3 0 7], i.wf = false) ∧
    ∀ i ∈ [Instr.or1 8 8, Instr.or2 7 7, Instr.or3 6 6], i.wf = true := by decide

theorem test_wf_xor : (∀ i ∈ [Instr.xor1 9 0, Instr.xor1 0 9, Instr.xor2 8 0, Instr.xor2 0 8, Instr.xor3 7 0, Instr.xor3 0 7], i.wf = false) ∧
    ∀ i ∈ [Instr.xor1 8 8, Instr.xor2 7 7, Instr.xor3 6 6], i.wf = true := by decide

theorem test_wf_not : (∀ i ∈ [Instr.not1 9, Instr.not2 8, Instr.not3 7], i.wf = false) ∧
    ∀ i ∈ [Instr.not1 8, Instr.not2 7, Instr.not3 6], i.wf = true := by decide

theorem test_wf_cmp : (∀ i ∈ [Instr.cmp1 9 0, Instr.cmp1 0 9, Instr.cmp2 8 0, Instr.cmp2 0 8, Instr.cmp3 7 0, Instr.cmp3 0 7], i.wf = false) ∧
    ∀ i ∈ [Instr.cmp1 8 8, Instr.cmp2 7 7, Instr.cmp3 6 6], i.wf = true := by decide

theorem test_wf_tst : (∀ i ∈ [Instr.tst1 9 0, Instr.tst1 0 9, Instr.tst2 8 0, Instr.tst2 0 8, Instr.tst3 7 0, Instr.tst3 0 7], i.wf = false) ∧
    ∀ i ∈ [Instr.tst1 8 8, Instr.tst2 7 7, Instr.tst3 6 6], i.wf = true := by decide

theorem test_wf_mov : (∀ i ∈ [Instr.mov1 9 0, Instr.mov1 0 9, Instr.mov2 8 0, Instr.mov2 0 8, Instr.mov3 7 0, Instr.mov3 0 7], i.wf = false) ∧
    ∀ i ∈ [Instr.mov1 8 8, Instr.mov2 7 7, Instr.mov3 6 6], i.wf = true := by decide

theorem test_wf_loadi : (∀ i ∈ [Instr.loadi1 9 0, Instr.loadi2 8 0, Instr.loadi3 7 0], i.wf = false) ∧
    ∀ i ∈ [Instr.loadi1 8 0, Instr.loadi2 7 0, Instr.loadi3 6 0], i.wf = true := by decide

theorem test_wf_load : (∀ i ∈ [Instr.load1 9 0, Instr.load2 8 0, Instr.load3 7 0], i.wf = false) ∧
    ∀ i ∈ [Instr.load1 8 0, Instr.load2 7 0, Instr.load3 6 0], i.wf = true := by decide

theorem test_wf_store : (∀ i ∈ [Instr.store1 9 0, Instr.store2 8 0, Instr.store3 7 0], i.wf = false) ∧
    ∀ i ∈ [Instr.store1 8 0, Instr.store2 7 0, Instr.store3 6 0], i.wf = true := by decide

theorem test_wf_push : (∀ i ∈ [Instr.push1 9, Instr.push2 8, Instr.push3 7], i.wf = false) ∧
    ∀ i ∈ [Instr.push1 8, Instr.push2 7, Instr.push3 6], i.wf = true := by decide

theorem test_wf_pop : (∀ i ∈ [Instr.pop1 9, Instr.pop2 8, Instr.pop3 7], i.wf = false) ∧
    ∀ i ∈ [Instr.pop1 8, Instr.pop2 7, Instr.pop3 6], i.wf = true := by decide

theorem test_wf_always : ∀ i ∈ [Instr.jmp 0xFFFFFF, .jz 0, .jnz 0, .jc 0, .jnc 0, .jsr 0, .rts, .hlt], i.wf = true := by
  decide

/-! ## Decoding: every constructor from bytes written out from the spec's encoding. In format RR the destination is
in the low nibble and the source in the high nibble; the operand values tell the fields apart. -/

theorem test_decode_add : decode [0x05, 0x02, 0x51] = .ok (.add1 1 5, []) ∧
    decode [0x06, 0x02, 0x52] = .ok (.add2 2 5, []) ∧
    decode [0x07, 0x02, 0x53] = .ok (.add3 3 5, []) := by decide

theorem test_decode_sub : decode [0x09, 0x02, 0x51] = .ok (.sub1 1 5, []) ∧
    decode [0x0A, 0x02, 0x52] = .ok (.sub2 2 5, []) ∧
    decode [0x0B, 0x02, 0x53] = .ok (.sub3 3 5, []) := by decide

theorem test_decode_inc : decode [0x0D, 0x02, 0x04] = .ok (.inc1 4, []) ∧
    decode [0x0E, 0x02, 0x05] = .ok (.inc2 5, []) ∧
    decode [0x0F, 0x02, 0x06] = .ok (.inc3 6, []) := by decide

theorem test_decode_dec : decode [0x11, 0x02, 0x04] = .ok (.dec1 4, []) ∧
    decode [0x12, 0x02, 0x05] = .ok (.dec2 5, []) ∧
    decode [0x13, 0x02, 0x06] = .ok (.dec3 6, []) := by decide

theorem test_decode_addi : decode [0x15, 0x04, 0x04, 0xA1] = .ok (.addi1 4 0xA1, []) ∧
    decode [0x16, 0x06, 0x05, 0xA1, 0xB2] = .ok (.addi2 5 0xB2A1, []) ∧
    decode [0x17, 0x08, 0x06, 0xA1, 0xB2, 0xC3] = .ok (.addi3 6 0xC3B2A1, []) := by decide

theorem test_decode_and : decode [0x19, 0x02, 0x51] = .ok (.and1 1 5, []) ∧
    decode [0x1A, 0x02, 0x52] = .ok (.and2 2 5, []) ∧
    decode [0x1B, 0x02, 0x53] = .ok (.and3 3 5, []) := by decide

theorem test_decode_or : decode [0x1D, 0x02, 0x51] = .ok (.or1 1 5, []) ∧
    decode [0x1E, 0x02, 0x52] = .ok (.or2 2 5, []) ∧
    decode [0x1F, 0x02, 0x53] = .ok (.or3 3 5, []) := by decide

theorem test_decode_xor : decode [0x21, 0x02, 0x51] = .ok (.xor1 1 5, []) ∧
    decode [0x22, 0x02, 0x52] = .ok (.xor2 2 5, []) ∧
    decode [0x23, 0x02, 0x53] = .ok (.xor3 3 5, []) := by decide

theorem test_decode_not : decode [0x25, 0x02, 0x04] = .ok (.not1 4, []) ∧
    decode [0x26, 0x02, 0x05] = .ok (.not2 5, []) ∧
    decode [0x27, 0x02, 0x06] = .ok (.not3 6, []) := by decide

theorem test_decode_cmp : decode [0x29, 0x02, 0x51] = .ok (.cmp1 1 5, []) ∧
    decode [0x2A, 0x02, 0x52] = .ok (.cmp2 2 5, []) ∧
    decode [0x2B, 0x02, 0x53] = .ok (.cmp3 3 5, []) := by decide

theorem test_decode_tst : decode [0x2D, 0x02, 0x51] = .ok (.tst1 1 5, []) ∧
    decode [0x2E, 0x02, 0x52] = .ok (.tst2 2 5, []) ∧
    decode [0x2F, 0x02, 0x53] = .ok (.tst3 3 5, []) := by decide

theorem test_decode_mov : decode [0x31, 0x02, 0x51] = .ok (.mov1 1 5, []) ∧
    decode [0x32, 0x02, 0x52] = .ok (.mov2 2 5, []) ∧
    decode [0x33, 0x02, 0x53] = .ok (.mov3 3 5, []) := by decide

theorem test_decode_loadi : decode [0x35, 0x04, 0x04, 0xA1] = .ok (.loadi1 4 0xA1, []) ∧
    decode [0x36, 0x06, 0x05, 0xA1, 0xB2] = .ok (.loadi2 5 0xB2A1, []) ∧
    decode [0x37, 0x08, 0x06, 0xA1, 0xB2, 0xC3] = .ok (.loadi3 6 0xC3B2A1, []) := by decide

theorem test_decode_load : decode [0x39, 0x08, 0x04, 0x56, 0x34, 0x12] = .ok (.load1 4 0x123456, []) ∧
    decode [0x3A, 0x08, 0x05, 0x56, 0x34, 0x12] = .ok (.load2 5 0x123456, []) ∧
    decode [0x3B, 0x08, 0x06, 0x56, 0x34, 0x12] = .ok (.load3 6 0x123456, []) := by decide

theorem test_decode_store : decode [0x3D, 0x08, 0x04, 0x56, 0x34, 0x12] = .ok (.store1 4 0x123456, []) ∧
    decode [0x3E, 0x08, 0x05, 0x56, 0x34, 0x12] = .ok (.store2 5 0x123456, []) ∧
    decode [0x3F, 0x08, 0x06, 0x56, 0x34, 0x12] = .ok (.store3 6 0x123456, []) := by decide

theorem test_decode_push : decode [0x41, 0x02, 0x04] = .ok (.push1 4, []) ∧
    decode [0x42, 0x02, 0x05] = .ok (.push2 5, []) ∧
    decode [0x43, 0x02, 0x06] = .ok (.push3 6, []) := by decide

theorem test_decode_pop : decode [0x45, 0x02, 0x04] = .ok (.pop1 4, []) ∧
    decode [0x46, 0x02, 0x05] = .ok (.pop2 5, []) ∧
    decode [0x47, 0x02, 0x06] = .ok (.pop3 6, []) := by decide

theorem test_decode_jumps : decode [0x48, 0x06, 0x56, 0x34, 0x12] = .ok (.jmp 0x123456, []) ∧
    decode [0x4C, 0x06, 0x56, 0x34, 0x12] = .ok (.jz 0x123456, []) ∧
    decode [0x50, 0x06, 0x56, 0x34, 0x12] = .ok (.jnz 0x123456, []) ∧
    decode [0x54, 0x06, 0x56, 0x34, 0x12] = .ok (.jc 0x123456, []) ∧
    decode [0x58, 0x06, 0x56, 0x34, 0x12] = .ok (.jnc 0x123456, []) ∧
    decode [0x5C, 0x06, 0x56, 0x34, 0x12] = .ok (.jsr 0x123456, []) := by decide

theorem test_decode_rts_hlt : decode [0x60, 0x00, 0xAA] = .ok (.rts, [0xAA]) ∧ decode [0x64, 0x00] = .ok (.hlt, []) := by
  decide

/-- Rejected by name: the decode faults of 95_test_vectors part 4, and bytes that run out. -/
theorem test_decode_rejects : decode [0xFF, 0x00] = .error (.invalidOpCode 0x00FF) ∧
    decode [0x00, 0x00] = .error (.invalidOpCode 0x0000) ∧ decode [0x05, 0x12, 0x10] = .error (.invalidOpCode 0x1205) ∧
    decode [0x04, 0x02, 0x10] = .error (.invalidOpCode 0x0204) ∧ decode [0x07, 0x02, 0x07] = .error (.register 0x0207) ∧
    decode [0x06, 0x02, 0x90] = .error (.register 0x0206) ∧ decode [0x0D, 0x02, 0x19] = .error (.packing 0x020D) ∧
    decode [0x05, 0x02] = .error (.truncated 0x0205) ∧ decode [0x64] = .error .noOpcode := by decide

/-- The encoder on the round-trip vectors E1, E6, E7 and E10 of 95_test_vectors part 3. -/
theorem test_encode : encode (.add1 8 8) = [0x05, 0x02, 0x88] ∧ encode (.addi2 7 0xBEEF) = [0x16, 0x06, 0x07, 0xEF, 0xBE] ∧
    encode (.load3 6 0xFFFFFF) = [0x3B, 0x08, 0x06, 0xFF, 0xFF, 0xFF] ∧
    encode (.jsr 0x123456) = [0x5C, 0x06, 0x56, 0x34, 0x12] := by decide

/-- A table word of 16 bits, the operand bytes above it 0. -/
theorem test_decodeTableWord : decodeTableWord 16 0x083E = some (.store2 0 0) ∧
    decodeTableWord 24 0x310206 = some (.add2 1 3) ∧ decodeTableWord 16 0x00FF = none := by decide

/-! ## One step: vectors of 95_test_vectors part 4, named by constructor and by their number in its table -/

theorem test_add1_1 : gives (start [0x05, 0x02, 0x10] 0x000100 0x00FFFF [(0, 0xFF), (1, 0x01)] false false [])
    [(0, 0x00), (1, 0x01)] true true 0x000103 0x00FFFF [] := by decide

theorem test_add1_4 : gives (start [0x05, 0x02, 0x00] 0x000100 0x00FFFF [(0, 0x80)] false false [])
    [(0, 0x00)] true true 0x000103 0x00FFFF [] := by decide

theorem test_add2_6 : gives (start [0x06, 0x02, 0x20] 0x000100 0x00FFFF [(0, 0xFF), (1, 0xFF), (2, 0x01)] false false [])
    [(0, 0x00), (1, 0x00), (2, 0x01)] true true 0x000103 0x00FFFF [] := by decide

theorem test_add2_7 : gives (start [0x06, 0x02, 0x10] 0x000100 0x00FFFF [(0, 0x01), (1, 0x02), (2, 0x03)] false false [])
    [(0, 0x03), (1, 0x05), (2, 0x03)] false false 0x000103 0x00FFFF [] := by decide

theorem test_add3_8 : gives (start [0x07, 0x02, 0x30] 0x000100 0x00FFFF [(0, 0xFF), (1, 0xFF), (2, 0xFF), (3, 0x01)] false false [])
    [(0, 0x00), (1, 0x00), (2, 0x00), (3, 0x01)] true true 0x000103 0x00FFFF [] := by decide

theorem test_sub1_1 : gives (start [0x09, 0x02, 0x10] 0x000100 0x00FFFF [(0, 0x00), (1, 0x01)] false false [])
    [(0, 0xFF), (1, 0x01)] false true 0x000103 0x00FFFF [] := by decide

theorem test_sub1_2 : gives (start [0x09, 0x02, 0x10] 0x000100 0x00FFFF [(0, 0x05), (1, 0x05)] false true [])
    [(0, 0x00), (1, 0x05)] true false 0x000103 0x00FFFF [] := by decide

theorem test_sub2_5 : gives (start [0x0A, 0x02, 0x20] 0x000100 0x00FFFF [(0, 0x00), (1, 0x00), (2, 0x01)] false false [])
    [(0, 0xFF), (1, 0xFF), (2, 0x01)] false true 0x000103 0x00FFFF [] := by decide

theorem test_sub3_7 : gives (start [0x0B, 0x02, 0x30] 0x000100 0x00FFFF [(0, 0x00), (1, 0x00), (2, 0x00), (3, 0x01)] false false [])
    [(0, 0xFF), (1, 0xFF), (2, 0xFF), (3, 0x01)] false true 0x000103 0x00FFFF [] := by decide

theorem test_inc1_1 : gives (start [0x0D, 0x02, 0x00] 0x000100 0x00FFFF [(0, 0xFF)] false false [])
    [(0, 0x00)] true true 0x000103 0x00FFFF [] := by decide

theorem test_inc2_3 : gives (start [0x0E, 0x02, 0x00] 0x000100 0x00FFFF [(0, 0xFF), (1, 0x00)] false false [])
    [(0, 0x00), (1, 0x01)] false false 0x000103 0x00FFFF [] := by decide

theorem test_inc2_4 : gives (start [0x0E, 0x02, 0x07] 0x000100 0x00FFFF [(7, 0xFF), (8, 0xFF)] false false [])
    [(7, 0x00), (8, 0x00)] true true 0x000103 0x00FFFF [] := by decide

theorem test_inc3_5 : gives (start [0x0F, 0x02, 0x00] 0x000100 0x00FFFF [(0, 0xFF), (1, 0xFF), (2, 0xFF)] false false [])
    [(0, 0x00), (1, 0x00), (2, 0x00)] true true 0x000103 0x00FFFF [] := by decide

theorem test_dec1_1 : gives (start [0x11, 0x02, 0x00] 0x000100 0x00FFFF [(0, 0x00)] false false [])
    [(0, 0xFF)] false true 0x000103 0x00FFFF [] := by decide

theorem test_dec1_2 : gives (start [0x11, 0x02, 0x00] 0x000100 0x00FFFF [(0, 0x01)] false false [])
    [(0, 0x00)] true false 0x000103 0x00FFFF [] := by decide

theorem test_dec2_4 : gives (start [0x12, 0x02, 0x00] 0x000100 0x00FFFF [(0, 0x00), (1, 0x01)] false false [])
    [(0, 0xFF), (1, 0x00)] false false 0x000103 0x00FFFF [] := by decide

theorem test_dec3_6 : gives (start [0x13, 0x02, 0x00] 0x000100 0x00FFFF [(0, 0x00), (1, 0x00), (2, 0x00)] false false [])
    [(0, 0xFF), (1, 0xFF), (2, 0xFF)] false true 0x000103 0x00FFFF [] := by decide

theorem test_addi1_1 : gives (start [0x15, 0x04, 0x00, 0x01] 0x000100 0x00FFFF [(0, 0xFF)] false false [])
    [(0, 0x00)] true true 0x000104 0x00FFFF [] := by decide

theorem test_addi1_2 : gives (start [0x15, 0x04, 0x00, 0x00] 0x000100 0x00FFFF [] false true [])
    [] true false 0x000104 0x00FFFF [] := by decide

theorem test_addi2_4 : gives (start [0x16, 0x06, 0x00, 0x10, 0x00] 0x000100 0x00FFFF [(0, 0xF0), (1, 0xFF)] false false [])
    [(0, 0x00), (1, 0x00)] true true 0x000105 0x00FFFF [] := by decide

theorem test_addi3_5 : gives (start [0x17, 0x08, 0x00, 0x11, 0x11, 0x11] 0x000100 0x00FFFF [(0, 0x56), (1, 0x34), (2, 0x12)] false false [])
    [(0, 0x67), (1, 0x45), (2, 0x23)] false false 0x000106 0x00FFFF [] := by decide

theorem test_cmp1_1 : gives (start [0x29, 0x02, 0x10] 0x000100 0x00FFFF [(0, 0x07), (1, 0x09)] false false [])
    [(0, 0x07), (1, 0x09)] false true 0x000103 0x00FFFF [] := by decide

theorem test_cmp1_3 : gives (start [0x29, 0x02, 0x10] 0x000100 0x00FFFF [(0, 0x05), (1, 0x05)] false false [])
    [(0, 0x05), (1, 0x05)] true false 0x000103 0x00FFFF [] := by decide

theorem test_cmp2_5 : gives (start [0x2A, 0x02, 0x20] 0x000100 0x00FFFF [(1, 0x01), (2, 0xFF)] false false [])
    [(1, 0x01), (2, 0xFF)] false false 0x000103 0x00FFFF [] := by decide

theorem test_cmp3_6 : gives (start [0x2B, 0x02, 0x30] 0x000100 0x00FFFF [(3, 0xFF), (4, 0xFF), (5, 0xFF)] false false [])
    [(3, 0xFF), (4, 0xFF), (5, 0xFF)] false true 0x000103 0x00FFFF [] := by decide

theorem test_and1_1 : gives (start [0x19, 0x02, 0x10] 0x000100 0x00FFFF [(0, 0xF0), (1, 0x0F)] false true [])
    [(0, 0x00), (1, 0x0F)] true false 0x000103 0x00FFFF [] := by decide

theorem test_and2_3 : gives (start [0x1A, 0x02, 0x20] 0x000100 0x00FFFF [(1, 0xFF), (2, 0xF0), (3, 0x0F)] false false [])
    [(1, 0x0F), (2, 0xF0), (3, 0x0F)] false false 0x000103 0x00FFFF [] := by decide

theorem test_and3_4 : gives (start [0x1B, 0x02, 0x30] 0x000100 0x00FFFF [(0, 0xFF), (1, 0xFF), (2, 0xFF), (3, 0x01), (5, 0x80)] false false [])
    [(0, 0x01), (1, 0x00), (2, 0x80), (3, 0x01), (5, 0x80)] false false 0x000103 0x00FFFF [] := by decide

theorem test_or1_5 : gives (start [0x1D, 0x02, 0x10] 0x000100 0x00FFFF [] false true [])
    [] true false 0x000103 0x00FFFF [] := by decide

theorem test_or1_6 : gives (start [0x1D, 0x02, 0x10] 0x000100 0x00FFFF [(0, 0xF0), (1, 0x0F)] false true [])
    [(0, 0xFF), (1, 0x0F)] false false 0x000103 0x00FFFF [] := by decide

theorem test_or2_7 : gives (start [0x1E, 0x02, 0x20] 0x000100 0x00FFFF [(0, 0x00), (1, 0x12), (2, 0x34)] false false [])
    [(0, 0x34), (1, 0x12), (2, 0x34)] false false 0x000103 0x00FFFF [] := by decide

theorem test_or3_8 : gives (start [0x1F, 0x02, 0x30] 0x000100 0x00FFFF [(0, 0x00), (2, 0x10), (3, 0x01)] false false [])
    [(0, 0x01), (2, 0x10), (3, 0x01)] false false 0x000103 0x00FFFF [] := by decide

theorem test_xor1_9 : gives (start [0x21, 0x02, 0x33] 0x000100 0x00FFFF [(3, 0xA5)] false true [])
    [(3, 0x00)] true false 0x000103 0x00FFFF [] := by decide

theorem test_xor1_10 : gives (start [0x21, 0x02, 0x10] 0x000100 0x00FFFF [(0, 0xFF), (1, 0x0F)] false false [])
    [(0, 0xF0), (1, 0x0F)] false false 0x000103 0x00FFFF [] := by decide

theorem test_xor2_11 : gives (start [0x22, 0x02, 0x20] 0x000100 0x00FFFF [(0, 0xFF), (1, 0xFF), (2, 0xFF), (3, 0xFF)] false false [])
    [(0, 0x00), (1, 0x00), (2, 0xFF), (3, 0xFF)] true false 0x000103 0x00FFFF [] := by decide

theorem test_xor3_12 : gives (start [0x23, 0x02, 0x30] 0x000100 0x00FFFF [(0, 0xEF), (1, 0xCD), (2, 0xAB), (3, 0xFF), (4, 0xFF), (5, 0xFF)] false false [])
    [(0, 0x10), (1, 0x32), (2, 0x54), (3, 0xFF), (4, 0xFF), (5, 0xFF)] false false 0x000103 0x00FFFF [] := by decide

theorem test_not1_1 : gives (start [0x25, 0x02, 0x00] 0x000100 0x00FFFF [(0, 0x00)] false true [])
    [(0, 0xFF)] false false 0x000103 0x00FFFF [] := by decide

theorem test_not1_2 : gives (start [0x25, 0x02, 0x00] 0x000100 0x00FFFF [(0, 0xFF)] false false [])
    [(0, 0x00)] true false 0x000103 0x00FFFF [] := by decide

theorem test_not2_3 : gives (start [0x26, 0x02, 0x00] 0x000100 0x00FFFF [(0, 0x00), (1, 0x00)] false false [])
    [(0, 0xFF), (1, 0xFF)] false false 0x000103 0x00FFFF [] := by decide

theorem test_not3_4 : gives (start [0x27, 0x02, 0x00] 0x000100 0x00FFFF [(0, 0xFF), (1, 0xFF), (2, 0xFF)] false false [])
    [(0, 0x00), (1, 0x00), (2, 0x00)] true false 0x000103 0x00FFFF [] := by decide

theorem test_tst1_1 : gives (start [0x2D, 0x02, 0x10] 0x000100 0x00FFFF [(0, 0xF0), (1, 0x0F)] false true [])
    [(0, 0xF0), (1, 0x0F)] true false 0x000103 0x00FFFF [] := by decide

theorem test_tst2_4 : gives (start [0x2E, 0x02, 0x20] 0x000100 0x00FFFF [(1, 0x80), (3, 0x80)] false false [])
    [(1, 0x80), (3, 0x80)] false false 0x000103 0x00FFFF [] := by decide

theorem test_tst3_5 : gives (start [0x2F, 0x02, 0x30] 0x000100 0x00FFFF [(0, 0xFF), (1, 0xFF), (5, 0xFF)] false false [])
    [(0, 0xFF), (1, 0xFF), (5, 0xFF)] true false 0x000103 0x00FFFF [] := by decide

theorem test_loadi1_1 : gives (start [0x35, 0x04, 0x00, 0x0A] 0x000100 0x00FFFF [(0, 0x00)] false true [])
    [(0, 0x0A)] false false 0x000104 0x00FFFF [] := by decide

theorem test_loadi1_2 : gives (start [0x35, 0x04, 0x00, 0x00] 0x000100 0x00FFFF [(0, 0x77)] false true [])
    [(0, 0x00)] true false 0x000104 0x00FFFF [] := by decide

theorem test_loadi2_4 : gives (start [0x36, 0x06, 0x00, 0x34, 0x12] 0x000100 0x00FFFF [(0, 0x00), (1, 0x00)] false false [])
    [(0, 0x34), (1, 0x12)] false false 0x000105 0x00FFFF [] := by decide

theorem test_loadi3_5 : gives (start [0x37, 0x08, 0x06, 0xEF, 0xCD, 0xAB] 0x000100 0x00FFFF [(6, 0x00), (7, 0x00), (8, 0x00)] false false [])
    [(6, 0xEF), (7, 0xCD), (8, 0xAB)] false false 0x000106 0x00FFFF [] := by decide

theorem test_mov1_1 : gives (start [0x31, 0x02, 0x02] 0x000100 0x00FFFF [(0, 0x07), (2, 0x99)] false true [])
    [(0, 0x07), (2, 0x07)] false false 0x000103 0x00FFFF [] := by decide

theorem test_mov1_2 : gives (start [0x31, 0x02, 0x01] 0x000100 0x00FFFF [(1, 0x12)] false true [])
    [(1, 0x00)] true false 0x000103 0x00FFFF [] := by decide

theorem test_mov2_4 : gives (start [0x32, 0x02, 0x01] 0x000100 0x00FFFF [(0, 0x11), (1, 0x22), (2, 0x33)] false false [])
    [(0, 0x11), (1, 0x11), (2, 0x22)] false false 0x000103 0x00FFFF [] := by decide

theorem test_mov3_5 : gives (start [0x33, 0x02, 0x03] 0x000100 0x00FFFF [(0, 0xEF), (1, 0xCD), (2, 0xAB), (3, 0x00), (4, 0x00), (5, 0x00)] false false [])
    [(0, 0xEF), (1, 0xCD), (2, 0xAB), (3, 0xEF), (4, 0xCD), (5, 0xAB)] false false 0x000103 0x00FFFF [] := by decide

theorem test_load1_1 : gives (start [0x39, 0x08, 0x00, 0x01, 0x03, 0x00] 0x000100 0x00FFFF [(0, 0x00)] false true [(0x0300, 0xEF), (0x0301, 0xCD), (0x0302, 0xAB)])
    [(0, 0xCD)] false false 0x000106 0x00FFFF [] := by decide

theorem test_load1_2 : gives (start [0x39, 0x08, 0x00, 0x00, 0x04, 0x00] 0x000100 0x00FFFF [(0, 0x55)] false true [])
    [(0, 0x00)] true false 0x000106 0x00FFFF [] := by decide

theorem test_load2_4 : gives (start [0x3A, 0x08, 0x04, 0x01, 0x03, 0x00] 0x000100 0x00FFFF [(4, 0x00), (5, 0x00)] false false [(0x0300, 0xEF), (0x0301, 0xCD), (0x0302, 0xAB)])
    [(4, 0xCD), (5, 0xAB)] false false 0x000106 0x00FFFF [] := by decide

theorem test_load2_5 : takes (start [0x3A, 0x08, 0x00, 0xFF, 0xFF, 0x00] 0x000100 0x00FFFF [] false false [(0xFFFF, 0x9C)])
    .data (some 0x083A) (some 0x010000) := by decide

theorem test_load3_6 : gives (start [0x3B, 0x08, 0x00, 0x00, 0x03, 0x00] 0x000100 0x00FFFF [(0, 0x00), (1, 0x00), (2, 0x00)] false false [(0x0300, 0xEF), (0x0301, 0xCD), (0x0302, 0xAB)])
    [(0, 0xEF), (1, 0xCD), (2, 0xAB)] false false 0x000106 0x00FFFF [] := by decide

theorem test_store1_1 : gives (start [0x3D, 0x08, 0x00, 0x00, 0x20, 0x00] 0x000100 0x00FFFF [(0, 0x1E)] false true [])
    [(0, 0x1E)] false false 0x000106 0x00FFFF [(0x2000, 0x1E)] := by decide

theorem test_store1_2 : gives (start [0x3D, 0x08, 0x00, 0x00, 0x20, 0x00] 0x000100 0x00FFFF [] false false [(0x2000, 0x77)])
    [] true false 0x000106 0x00FFFF [(0x2000, 0x00)] := by decide

theorem test_store2_3 : gives (start [0x3E, 0x08, 0x00, 0x00, 0x02, 0x00] 0x000100 0x00FFFF [(0, 0x34), (1, 0x12)] false false [])
    [(0, 0x34), (1, 0x12)] false false 0x000106 0x00FFFF [(0x0200, 0x34), (0x0201, 0x12)] := by decide

theorem test_store2_4 : takes (start [0x3E, 0x08, 0x00, 0xFF, 0xFF, 0x00] 0x000100 0x00FFFF [(0, 0x34), (1, 0x12)] false false [])
    .data (some 0x083E) (some 0x010000) := by decide

theorem test_store3_5 : gives (start [0x3F, 0x08, 0x06, 0x00, 0x03, 0x00] 0x000100 0x00FFFF [(6, 0xEF), (7, 0xCD), (8, 0xAB)] false false [])
    [(6, 0xEF), (7, 0xCD), (8, 0xAB)] false false 0x000106 0x00FFFF [(0x0300, 0xEF), (0x0301, 0xCD), (0x0302, 0xAB)] := by decide

theorem test_jmp_1 : gives (start [0x48, 0x06, 0x34, 0x12, 0x00] 0x000100 0x00FFFF [] true true [])
    [] true true 0x001234 0x00FFFF [] := by decide

theorem test_jmp_10 : gives (start [0x48, 0x06, 0x00, 0x00, 0x01] 0x000100 0x00FFFF [] false false [])
    [] false false 0x010000 0x00FFFF [] := by decide

theorem test_jz_2 : gives (start [0x4C, 0x06, 0x20, 0x00, 0x00] 0x000100 0x00FFFF [] true false [])
    [] true false 0x000020 0x00FFFF [] := by decide

theorem test_jz_3 : gives (start [0x4C, 0x06, 0x20, 0x00, 0x00] 0x000100 0x00FFFF [] false true [])
    [] false true 0x000105 0x00FFFF [] := by decide

theorem test_jnz_4 : gives (start [0x50, 0x06, 0x20, 0x00, 0x00] 0x000100 0x00FFFF [] false false [])
    [] false false 0x000020 0x00FFFF [] := by decide

theorem test_jnz_5 : gives (start [0x50, 0x06, 0x20, 0x00, 0x00] 0x000100 0x00FFFF [] true false [])
    [] true false 0x000105 0x00FFFF [] := by decide

theorem test_jc_6 : gives (start [0x54, 0x06, 0x20, 0x00, 0x00] 0x000100 0x00FFFF [] false true [])
    [] false true 0x000020 0x00FFFF [] := by decide

theorem test_jc_7 : gives (start [0x54, 0x06, 0x20, 0x00, 0x00] 0x000100 0x00FFFF [] true false [])
    [] true false 0x000105 0x00FFFF [] := by decide

theorem test_jnc_8 : gives (start [0x58, 0x06, 0x20, 0x00, 0x00] 0x000100 0x00FFFF [] false false [])
    [] false false 0x000020 0x00FFFF [] := by decide

theorem test_jnc_9 : gives (start [0x58, 0x06, 0x20, 0x00, 0x00] 0x000100 0x00FFFF [] false true [])
    [] false true 0x000105 0x00FFFF [] := by decide

theorem test_jsr_1 : gives (start [0x5C, 0x06, 0x12, 0x00, 0x00] 0x000100 0x00FFFF [] true true [])
    [] true true 0x000012 0x00FFFC [(0xFFFC, 0x05), (0xFFFD, 0x01)] := by decide

theorem test_jsr_4 : takes (start [0x5C, 0x06, 0x12, 0x00, 0x00] 0x000100 0x000002 [] false false [])
    .stack (some 0x065C) (some 0xFFFFFF) := by decide

theorem test_rts_2 : gives (start [0x60, 0x00] 0x000100 0x00FFFC [] false false [(0xFFFC, 0x0A), (0xFFFD, 0x00), (0xFFFE, 0x00)])
    [] false false 0x00000A 0x00FFFF [] := by decide

theorem test_rts_3 : takes (start [0x60, 0x00] 0x000100 0x00FFFF [] false false [])
    .stack (some 0x0060) (some 0x010000) := by decide

theorem test_push1_1 : gives (start [0x41, 0x02, 0x00] 0x000100 0x00FFFF [(0, 0x5A)] true true [])
    [(0, 0x5A)] true true 0x000103 0x00FFFE [(0xFFFE, 0x5A)] := by decide

theorem test_push1_4 : takes (start [0x41, 0x02, 0x00] 0x000100 0x000000 [(0, 0x01)] false false [])
    .stack (some 0x0241) (some 0xFFFFFF) := by decide

theorem test_push2_2 : gives (start [0x42, 0x02, 0x00] 0x000100 0x00FFFF [(0, 0x34), (1, 0x12)] false false [])
    [(0, 0x34), (1, 0x12)] false false 0x000103 0x00FFFD [(0xFFFD, 0x34), (0xFFFE, 0x12)] := by decide

theorem test_push3_3 : gives (start [0x43, 0x02, 0x06] 0x000100 0x00FFFF [(6, 0xEF), (7, 0xCD), (8, 0xAB)] false false [])
    [(6, 0xEF), (7, 0xCD), (8, 0xAB)] false false 0x000103 0x00FFFC [(0xFFFC, 0xEF), (0xFFFD, 0xCD), (0xFFFE, 0xAB)] := by decide

theorem test_pop1_5 : gives (start [0x45, 0x02, 0x03] 0x000100 0x00FFFE [(3, 0x00)] false false [(0xFFFE, 0x5A)])
    [(3, 0x5A)] false false 0x000103 0x00FFFF [] := by decide

theorem test_pop1_6 : gives (start [0x45, 0x02, 0x03] 0x000100 0x00FFFE [] false true [(0xFFFE, 0x00)])
    [] false true 0x000103 0x00FFFF [] := by decide

theorem test_pop2_7 : gives (start [0x46, 0x02, 0x03] 0x000100 0x00FFFD [(3, 0x00), (4, 0x00)] false false [(0xFFFD, 0x34), (0xFFFE, 0x12)])
    [(3, 0x34), (4, 0x12)] false false 0x000103 0x00FFFF [] := by decide

theorem test_pop2_10 : takes (start [0x46, 0x02, 0x00] 0x000100 0x00FFFF [] false false [])
    .stack (some 0x0246) (some 0x010000) := by decide

theorem test_pop3_8 : gives (start [0x47, 0x02, 0x00] 0x000100 0x00FFFC [(0, 0x00), (1, 0x00), (2, 0x00)] false false [(0xFFFC, 0xEF), (0xFFFD, 0xCD), (0xFFFE, 0xAB)])
    [(0, 0xEF), (1, 0xCD), (2, 0xAB)] false false 0x000103 0x00FFFF [] := by decide

theorem test_hlt_1 : gives (start [0x64, 0x00] 0x000100 0x00FFFF [(0, 0x12)] true true [])
    [(0, 0x12)] true true 0x000102 0x00FFFF [] := by decide

/-! ## One step: the fetch and decode faults, from the last table of 95_test_vectors part 4 -/

theorem test_fault_1 : takes (start [0xFF, 0x00] 0x000100 0x00FFFF [] false false [])
    .unknown (some 0x00FF) (none) := by decide

theorem test_fault_3 : takes (start [0x05, 0x12, 0x10] 0x000100 0x00FFFF [] false false [])
    .unknown (some 0x1205) (none) := by decide

theorem test_fault_5 : takes (start [0x07, 0x02, 0x07] 0x000100 0x00FFFF [] false false [])
    .register (some 0x0207) (none) := by decide

theorem test_fault_6 : takes (start [0x06, 0x02, 0x90] 0x000100 0x00FFFF [] false false [])
    .register (some 0x0206) (none) := by decide

theorem test_fault_7 : takes (start [0x0D, 0x02, 0x10] 0x000100 0x00FFFF [] false false [])
    .packing (some 0x020D) (none) := by decide

theorem test_fault_8 : takes (start [0x0D, 0x02, 0x19] 0x000100 0x00FFFF [] false false [])
    .packing (some 0x020D) (none) := by decide

theorem test_fault_10 : takes (start [0x3A, 0x08, 0x18, 0x00, 0x00, 0x01] 0x000100 0x00FFFF [] false false [])
    .packing (some 0x083A) (none) := by decide

theorem test_fault_11 : takes (start [0x05, 0x02] 0x00FFFE 0x00FFFF [] false false [])
    .truncated (some 0x0205) (some 0x010000) := by decide

theorem test_fault_13 : takes (start [0x64] 0x00FFFF 0x00FFFF [] false false [])
    .fetch (none) (some 0x010000) := by decide

/-! ## The 24-bit unit and the flags (95_test_vectors part 2) -/

theorem test_u24_arithmetic : add24 0xFFFFFF 1 = 0 ∧ add24 0x800000 0x800000 = 0 ∧ sub24 0 1 = 0xFFFFFF ∧
    sub24 0x00FFFF 3 = 0x00FFFC ∧ not24 0x0F0F0F = 0xF0F0F0 ∧ and24 0xFF00FF 0x0FF0F0 = 0x0F00F0 ∧
    xor24 0xFFFFFF 0x123456 = 0xEDCBA9 := by decide

theorem test_u24_shifts : shl24 0x800001 0 = 0x800001 ∧ shl24 0x800001 1 = 0x000002 ∧ shl24 1 23 = 0x800000 ∧
    shl24 1 24 = 0 ∧ shr24 0x800001 1 = 0x400000 ∧ shr24 0x800000 23 = 1 ∧ shr24 0xFFFFFF 24 = 0 ∧
    lt24 0x000001 0xFFFFFF = true := by decide

theorem test_parse24 : parse24 "30".toList = some 0x00001E ∧ parse24 "0x1000000".toList = some 0x000000 ∧
    parse24 "16777217".toList = some 0x000001 := by decide

theorem test_width_arithmetic : addw (w := 2) 0xFFFF 1 = (0, true) ∧ subw (w := 2) 1 2 = (0xFFFF, true) ∧
    subw (w := 2) 0x1234 0x1234 = (0, false) ∧ incw (w := 2) 0xFFFF = (0, true) ∧ decw (w := 2) 0 = (0xFFFF, true) ∧
    notw (w := 2) 0x00FF = (0xFF00, false) := by decide

/-! ## The assembler (95_test_vectors part 3) -/

/-- A14: a forward and a backward reference. -/
theorem test_asm_labels : Asm.assemble false "JMP fwd\nback:\nHLT\nfwd:\nJMP back".toList =
    .ok [0x48, 0x06, 0x07, 0x00, 0x00, 0x64, 0x00, 0x48, 0x06, 0x05, 0x00, 0x00] := by decide

/-- E3 and A18: case, a comma without a space, a comment. -/
theorem test_asm_tokens : Asm.assemble false "add.2 r1,r3 ; sum".toList = .ok [0x06, 0x02, 0x31] := by decide

/-- A4, A6, A7 and A13. -/
theorem test_asm_parse_errors : Asm.assemble false "LOADI R0, 256".toList = .error (.parseError 1) ∧
    Asm.assemble false "JMP 0x1000000".toList = .error (.parseError 1) ∧
    Asm.assemble false "ADD.3 R7, R0".toList = .error (.parseError 1) ∧
    Asm.assemble false "loop: ADD R0, R1".toList = .error (.parseError 1) := by decide

/-- A15 to A17. -/
theorem test_asm_label_errors : Asm.assemble false "x:\nHLT\nx:\nHLT".toList = .error (.duplicateLabel "x".toList) ∧
    Asm.assemble false "JMP nowhere\nHLT".toList = .error (.unknownLabel "nowhere".toList) ∧
    Asm.assemble false "Loop:\nJMP loop".toList = .error (.unknownLabel "loop".toList) := by decide

/-- A19 and A20: strict and lenient. -/
theorem test_asm_lenient : Asm.assemble false "LOADI R0, 1\nBOGUS R0\nend:\nHLT".toList = .error (.parseError 2) ∧
    Asm.assemble true "LOADI R0, 1\nBOGUS R0\nend:\nHLT".toList = .ok [0x35, 0x04, 0x00, 0x01, 0x64, 0x00] := by decide

/-! ## Host operations (70_reset R900, R903, R910) -/

/-- HLT placed at `pc` of the machine after reset. -/
def haltNext : State := State.reset.withFetchWord 16 0x0064

theorem test_reset_values : State.reset.pc = 0 ∧ State.reset.sp = 0x00FFFF ∧ State.reset.engine = .idle ∧
    State.reset.cfg.memSize.1 = 0x10000 ∧ State.reset.mem = [] := by decide

theorem test_hostRun_halts : (haltNext.hostRun 1).2 = .ok ∧ (haltNext.hostRun 1).1.icount = 1 ∧
    (State.reset.hostRun 1).2 = .fault ⟨.invalidOpCode, 0, some 0x0000, none, .unknown⟩ := by decide

theorem test_hostLoad : (State.reset.hostLoad [0x64, 0x00] 0x00FFFE).isSome = true ∧
    State.reset.hostLoad [0x64, 0x00] 0x00FFFF = none ∧
    ({ State.reset with engine := .running } : State).hostLoad [0x64, 0x00] 0 = none := by decide

theorem test_flagsByte : ({ State.reset with zero := true } : State).flagsByte = 0x01 ∧
    ({ State.reset with carry := true } : State).flagsByte = 0x02 := by decide

/-! ## Witnesses: every statement with hypotheses has something that meets them, at the ends of each range -/

/-- The last legal register of each width, and the last backed address of each access length. -/
def edges : Prop := viewOk 1 8 = true ∧ viewOk 2 7 = true ∧ viewOk 3 6 = true

def backedEdges : Prop := State.reset.inMem 0x00FFFF 1 = true ∧ State.reset.inMem 0x00FFFE 2 = true ∧
  State.reset.inMem 0x00FFFD 3 = true

def unbackedEdges : Prop := State.reset.inMem 0x010000 1 = false ∧ State.reset.inMem 0x00FFFF 2 = false ∧
  State.reset.inMem 0x00FFFE 3 = false

theorem edges_hold : edges := by unfold edges; decide

theorem backedEdges_hold : backedEdges := by unfold backedEdges; decide

theorem unbackedEdges_hold : unbackedEdges := by unfold unbackedEdges; decide

/-- A Faulted machine: one step from reset fetches the word 0x0000. -/
def faulted : State := State.reset.raise .unknown (some 0x0000) none

/-- A Halted machine. -/
def halted : State := { State.reset with engine := .halted }

/-- A machine whose stack pointer is `sp`. -/
def atSp (sp : U24) : State := { State.reset with sp := sp }

theorem witness_ResetLeavesTheStatedValues : (∃ t, (State.create Config.standard).hostLoad [0x64, 0x00] 0#24 = some t) ∧
    1 < [0x64#8, 0x00#8].length ∧ [0x64#8, 0x00#8].length ≤ (2#24).toNat := by
  refine ⟨⟨_, rfl⟩, ?_⟩; decide

theorem witness_OnlyResetLeavesATerminalState : halted.engine = .halted ∧ faulted.engine = .faulted := by decide

theorem witness_EngineStateTransitions : State.reset.engine = .idle ∧ halted.engine = .halted ∧
    (∃ r, faulted.engine = .faulted ∧ faulted.fault = some r) ∧ haltNext.enter.engine = .running ∧
    (∃ t, step haltNext.enter = .next t ∧ t.engine = .halted) ∧ State.reset.engine ≠ .running ∧
    halted.engine ≠ .running ∧ faulted.engine ≠ .running ∧ haltNext.enter.engine ≠ .idle ∧ halted.engine ≠ .idle :=
  ⟨rfl, rfl, ⟨_, rfl, rfl⟩, by decide, ⟨_, rfl, by decide⟩, by decide⟩

theorem witness_RunDoesNotDependOnTheCap : (haltNext.hostRun 1).2 ≠ .unfinished ∧
    (State.reset.hostRun 1).2 ≠ .unfinished := by decide

theorem witness_LoadWritesTheImageInIdleOnly : (∃ t, State.reset.hostLoad [0x64, 0x00] 0x00FFFE = some t) ∧
    1 < [0x64#8, 0x00#8].length := by
  refine ⟨⟨_, rfl⟩, ?_⟩; decide

theorem witness_ReadMemReturnsBackedBytesOnly : State.reset.inMem 0x00FFFF 1 = true ∧
    State.reset.inMem 0x00FFFF 2 = false := by decide

theorem witness_RegisterViewsAreLittleEndian : edges := edges_hold

theorem witness_BackedAccessesAndFirstBadAddress : State.reset.inMem 0x00FFFF 1 = true ∧
    State.reset.firstBad 0x00FFFF 2 = some 0x010000 ∧ State.reset.firstBad 0xFFFFFF 2 = some 0xFFFFFF := by decide

theorem witness_MemWriteSetsExactlyItsBytes : 3 ≤ 3 ∧ State.reset.mem.wf ∧
    (0x000003#24 ≠ 0 + BitVec.ofNat 24 0 ∧ 0x000003#24 ≠ 0 + BitVec.ofNat 24 1 ∧ 0x000003#24 ≠ 0 + BitVec.ofNat 24 2) := by
  decide

theorem witness_StoreThenNarrowLoadSeesItsBytes : edges ∧ backedEdges := ⟨edges_hold, backedEdges_hold⟩

theorem witness_WidthArithmeticAndCarry : (1 ≤ 1 ∧ 1 ≤ 3) ∧ (1 ≤ 3 ∧ 3 ≤ 3) ∧
    ((0#24).toNat ≤ (0xFFFFFF#24).toNat) ∧ ((0#24).toNat < (1#24).toNat) ∧ ((5#24) = 5#24) ∧
    (incw (w := 3) 0xFFFFFF).2 = true ∧ (decw (w := 3) 0).2 = true := by decide

/-- A shift count of the width; digits at both ends of each range. -/
theorem witness_U24WrapsAndMasks : 24 ≤ 24 ∧
    (['0', '9'] ≠ [] ∧ ∀ c ∈ ['0', '9'], '0' ≤ c ∧ c ≤ '9') ∧
    (['0', '9', 'A', 'F', 'a', 'f'] ≠ [] ∧ ∀ c ∈ ['0', '9', 'A', 'F', 'a', 'f'],
      ('0' ≤ c ∧ c ≤ '9') ∨ ('A' ≤ c ∧ c ≤ 'F') ∨ ('a' ≤ c ∧ c ≤ 'f')) := by simp

theorem witness_AddWritesSumAndCarry : edges := edges_hold
theorem witness_SubWritesDifferenceAndBorrow : edges := edges_hold
theorem witness_IncAddsOneWithCarry : edges := edges_hold
theorem witness_DecSubtractsOneWithBorrow : edges := edges_hold
theorem witness_AddiAddsTheImmediate : edges := edges_hold
theorem witness_CmpWritesOnlyTheFlags : edges := edges_hold
theorem witness_LogicWritesResultAndClearsCarry : edges := edges_hold
theorem witness_NotComplementsTheView : edges := edges_hold
theorem witness_TstWritesOnlyTheFlags : edges := edges_hold
theorem witness_LoadiWritesTheImmediate : edges := edges_hold
theorem witness_MovCopiesTheOldSource : edges := edges_hold
theorem witness_CompareThenJumpTestsUnsignedOrder : edges := edges_hold
theorem witness_LoadReadsBackedMemory : edges ∧ backedEdges := ⟨edges_hold, backedEdges_hold⟩
theorem witness_StoreWritesBackedMemory : edges ∧ backedEdges := ⟨edges_hold, backedEdges_hold⟩
theorem witness_UnbackedDataAccessFaults : edges ∧ unbackedEdges := ⟨edges_hold, unbackedEdges_hold⟩

theorem witness_JsrPushesTheReturnAddress : (atSp 0x000003).inMem ((atSp 0x000003).sp - 3#24) 3 = true ∧
    (atSp 0x010000).inMem ((atSp 0x010000).sp - 3#24) 3 = true := by decide

theorem witness_RtsPopsTheReturnAddress : (atSp 0x00FFFD).inMem (atSp 0x00FFFD).sp 3 = true ∧
    (atSp 0).inMem (atSp 0).sp 3 = true := by decide

theorem witness_PushLowersSpThenWrites : edges ∧ (atSp 0x010000).inMem ((atSp 0x010000).sp - 1#24) 1 = true ∧
    (atSp 0x000002).inMem ((atSp 0x000002).sp - 2#24) 2 = true ∧
    (atSp 0x000003).inMem ((atSp 0x000003).sp - 3#24) 3 = true := ⟨edges_hold, by decide⟩

theorem witness_PopReadsThenRaisesSp : edges ∧ (atSp 0x00FFFF).inMem (atSp 0x00FFFF).sp 1 = true ∧
    (atSp 0x00FFFE).inMem (atSp 0x00FFFE).sp 2 = true ∧ (atSp 0x00FFFD).inMem (atSp 0x00FFFD).sp 3 = true :=
  ⟨edges_hold, by decide⟩

theorem witness_UnbackedStackAccessFaults : edges ∧ (atSp 0).inMem ((atSp 0).sp - 1#24) 1 = false ∧
    (atSp 1).inMem ((atSp 1).sp - 2#24) 2 = false ∧ (atSp 2).inMem ((atSp 2).sp - 3#24) 3 = false ∧
    (atSp 0x010000).inMem (atSp 0x010000).sp 1 = false ∧ (atSp 0x00FFFF).inMem (atSp 0x00FFFF).sp 2 = false ∧
    (atSp 0x00FFFE).inMem (atSp 0x00FFFE).sp 3 = false := ⟨edges_hold, by decide⟩

/-- The pushed item still stands at `sp`: the state after the push itself. -/
theorem witness_CallReturnSymmetry : State.reset.inMem (State.reset.sp - 3#24) 3 = true ∧
    (∃ t, exec (.jsr 0x000012) State.reset = .next t ∧ t.cfg = State.reset.cfg) ∧
    (∃ t, exec (.push1 8) State.reset = .next t ∧ t.cfg = State.reset.cfg) ∧
    (∃ t, exec (.push2 7) State.reset = .next t ∧ t.cfg = State.reset.cfg) ∧
    (∃ t, exec (.push3 6) State.reset = .next t ∧ t.cfg = State.reset.cfg) ∧ edges ∧
    State.reset.inMem (State.reset.sp - 1#24) 1 = true ∧ State.reset.inMem (State.reset.sp - 2#24) 2 = true :=
  ⟨by decide, ⟨_, rfl, by decide⟩, ⟨_, rfl, by decide⟩, ⟨_, rfl, by decide⟩, ⟨_, rfl, by decide⟩, edges_hold, by decide,
    by decide⟩

theorem witness_RegisterPastCellEightFaults : (Instr.add1 9 0).wf = false ∧ (Instr.pop3 7).wf = false := by decide

theorem witness_StepRunsTheDecodedInstruction : haltNext.enabled = true ∧ decode [0x64, 0x00] = .ok (.hlt, []) ∧
    HoldsAt haltNext haltNext.pc [0x64, 0x00] := by
  refine ⟨by decide, by decide, by decide, by decide⟩

theorem witness_UnknownCodeRaisesInvalidOpCode : State.reset.enabled = true ∧ State.reset.inMem State.reset.pc 2 = true ∧
    (∀ row ∈ opcodeMap, row.code ≠ State.reset.opcodeAt) ∧ ∀ row ∈ opcodeMap, row.code ≠ 0x00FF#16 := by decide

/-- An enabled machine with these bytes at `pc`. -/
def running (code : List Byte) (pc : U24) : State := start code pc 0x00FFFF [] false false []

/-- Fetch: the word at 0x00FFFF. Truncated: ADD.1 at 0x00FFFE. Packing in formats R, RI and RA: 0D 02 10, 15 04 10,
39 08 10. Register in formats R, RI and RA: 0D 02 09, 15 04 09, 39 08 09, and in format RR in each field: 05 02 09,
05 02 90. -/
theorem witness_FetchChecksComeInOrder :
    (running [0x64] 0x00FFFF).inMem 0x00FFFF 2 = false ∧
    ((running [0x05, 0x02] 0x00FFFE).opcodeAt = 0x0205#16 ∧ (running [0x05, 0x02] 0x00FFFE).inMem 0x010000 1 = false) ∧
    ((running [0x0D, 0x02, 0x10] 0).opcodeAt = 0x020D#16 ∧ highNibble ((running [0x0D, 0x02, 0x10] 0).byteAt 2) ≠ 0#4) ∧
    ((running [0x15, 0x04, 0x10] 0).opcodeAt = 0x0415#16 ∧ highNibble ((running [0x15, 0x04, 0x10] 0).byteAt 2) ≠ 0#4) ∧
    ((running [0x39, 0x08, 0x10] 0).opcodeAt = 0x0839#16 ∧ highNibble ((running [0x39, 0x08, 0x10] 0).byteAt 2) ≠ 0#4) ∧
    ((running [0x0D, 0x02, 0x09] 0).opcodeAt = 0x020D#16 ∧ highNibble ((running [0x0D, 0x02, 0x09] 0).byteAt 2) = 0#4 ∧
      viewOk 1 (lowNibble ((running [0x0D, 0x02, 0x09] 0).byteAt 2)) = false) ∧
    ((running [0x15, 0x04, 0x09] 0).opcodeAt = 0x0415#16 ∧ highNibble ((running [0x15, 0x04, 0x09] 0).byteAt 2) = 0#4 ∧
      viewOk 1 (lowNibble ((running [0x15, 0x04, 0x09] 0).byteAt 2)) = false) ∧
    ((running [0x39, 0x08, 0x09] 0).opcodeAt = 0x0839#16 ∧ highNibble ((running [0x39, 0x08, 0x09] 0).byteAt 2) = 0#4 ∧
      viewOk 1 (lowNibble ((running [0x39, 0x08, 0x09] 0).byteAt 2)) = false) ∧
    ((running [0x05, 0x02, 0x09] 0).opcodeAt = 0x0205#16 ∧
      viewOk 1 (lowNibble ((running [0x05, 0x02, 0x09] 0).byteAt 2)) = false) ∧
    ((running [0x05, 0x02, 0x90] 0).opcodeAt = 0x0205#16 ∧
      viewOk 1 (highNibble ((running [0x05, 0x02, 0x90] 0).byteAt 2)) = false) ∧
    (lookup 0x0205#16).isSome = true ∧ (lookup 0x020D#16).isSome = true ∧ (lookup 0x0415#16).isSome = true ∧
    (lookup 0x0839#16).isSome = true ∧ (running [0x64] 0x00FFFF).enabled = true := by decide

theorem witness_FaultsArePrecise : State.reset.enabled = true ∧ haltNext.enabled = true ∧
    (∃ t, step State.reset = .next t ∧ t.engine = .faulted) ∧ (∃ t, step haltNext = .next t ∧ t.engine ≠ .faulted) :=
  ⟨by decide, by decide, ⟨_, rfl, by decide⟩, ⟨_, rfl, by decide⟩⟩

theorem witness_InstructionCounterCountsCompletions : (∃ t, step State.reset = .next t ∧ t.engine = .faulted) ∧
    (∃ t, step haltNext = .next t ∧ t.engine ≠ .faulted) ∧ (faulted.enabled = false ∧ step faulted = .next faulted) :=
  ⟨⟨_, rfl, by decide⟩, ⟨_, rfl, by decide⟩, by decide, rfl⟩

theorem witness_OnlyHltHalts : haltNext.enabled = true ∧ ∃ t, step haltNext = .next t ∧ t.engine = .halted :=
  ⟨by decide, _, rfl, by decide⟩

theorem witness_ControlAndStackInstructionsKeepFlags : keepsFlags (.pop3 6) = true ∧ keepsFlags (.jmp 0) = true ∧
    (∃ t, exec (.pop3 6) (atSp 0) = .next t) ∧
    (∃ t, t.engine ≠ .faulted ∧ exec (.and1 8 8) State.reset = .next t) ∧
    (∃ t, t.engine ≠ .faulted ∧ exec (.store3 6 0x00FFFD) State.reset = .next t) :=
  ⟨rfl, rfl, ⟨_, rfl⟩, ⟨_, by decide, rfl⟩, ⟨_, by decide, rfl⟩⟩

theorem witness_OnlyStackInstructionsMoveSp : usesStack (.store3 6 0) = false ∧
    ∃ t, exec (.store3 6 0) State.reset = .next t := ⟨rfl, _, rfl⟩

theorem witness_OnlyStoresPushesAndCallsWriteMemory : writesMemory (.pop3 6) = false ∧
    ∃ t, exec (.pop3 6) (atSp 0) = .next t := ⟨rfl, _, rfl⟩

/-- Parameters with one byte of memory and a contents listed for it. -/
def oneByte : Config := { Config.standard with memSize := ⟨1, by decide⟩, memInit := [(0, 0x64)] }

theorem witness_InvariantHoldsAtReset : ConfigOk Config.standard ∧ ConfigOk oneByte := by decide

/-- The invariant of a state, each part decided. -/
theorem inv_of {s : State} (h : (decide s.mem.wf && s.mem.all (fun e => decide (e.1 < s.cfg.memSize.1)) &&
    decide (s.icount < 2 ^ s.cfg.icountBits)) = true) (hf : FaultOk s) : Inv s := by
  simp only [Bool.and_eq_true, decide_eq_true_eq, List.all_eq_true] at h
  exact ⟨h.1.1, h.1.2, h.2, hf⟩

theorem inv_haltNext : Inv haltNext :=
  inv_of (by decide) (by show haltNext.engine ≠ .faulted; decide)

theorem inv_faulted : Inv faulted :=
  inv_of (by decide) ⟨rfl, by decide, rfl⟩

theorem witness_EveryStepKeepsTheInvariant : Inv haltNext ∧ (∃ t, step haltNext = .next t) ∧ Inv faulted ∧
    ∃ t, step faulted = .next t :=
  ⟨inv_haltNext, ⟨_, rfl⟩, inv_faulted, _, rfl⟩

theorem witness_HostOperationsKeepTheInvariant : Inv haltNext ∧ ∃ t, haltNext.hostLoad [0x64, 0x00] 0x00FFFE = some t :=
  ⟨inv_haltNext, _, rfl⟩

theorem witness_DecodeAndEncodeAgree : (Instr.load3 6 0xFFFFFF).wf = true ∧ Instr.rts.wf = true ∧
    decode [0x60, 0x00, 0x01] = .ok (.rts, [0x01]) := by decide

theorem witness_OpcodeMapIsABijection : (Instr.add1 0 8).code = (Instr.add1 8 0).code := rfl

theorem witness_AssemblerEmitsOnlyDecodableCode : ∃ bytes, Asm.assemble false "a:\nJMP a".toList = .ok bytes := by
  refine ⟨[0x48, 0x06, 0x00, 0x00, 0x00], ?_⟩; decide

/-- Three lines: an instruction, one that does not parse, a label. -/
def cutLines : List (Asm.Text × Nat) := [("JMP a".toList, 1), ("BOGUS".toList, 2), ("a:".toList, 3)]

theorem no_label_b (l : Asm.Text × Nat) (hl : l ∈ cutLines) : Asm.parseItem l.1 ≠ some (.label "b".toList) := by
  intro h
  have hb := congrArg (fun o => match o with | some (.label n) => decide (n = "b".toList) | _ => false) h
  simp only [cutLines, List.mem_cons, List.not_mem_nil, or_false] at hl
  obtain rfl | rfl | rfl := hl <;> exact absurd hb (by decide)

/-- The passes complete on `cutLines` with lenient set; each kind of line stands there to cut at; no line is a label
`b`; and the completed reference finds `a` and does not find `b`. -/
theorem witness_AssemblerPassesAgreeOnOffsets : ∃ labels size bytes,
    (Asm.pass1 true cutLines 0 [] = .ok (labels, size) ∧ Asm.pass2 true labels cutLines = .ok bytes) ∧
    (cutLines = [] ++ ("JMP a".toList, 1) :: [("BOGUS".toList, 2), ("a:".toList, 3)] ∧
      ∃ row i, Asm.parseItem "JMP a".toList = some (.instr row i)) ∧
    (cutLines = [("JMP a".toList, 1)] ++ ("BOGUS".toList, 2) :: [("a:".toList, 3)] ∧
      Asm.parseItem "BOGUS".toList = none) ∧
    (cutLines = [("JMP a".toList, 1), ("BOGUS".toList, 2)] ++ ("a:".toList, 3) :: [] ∧
      Asm.parseItem "a:".toList = some (.label "a".toList)) ∧
    (∀ l ∈ cutLines, Asm.parseItem l.1 ≠ some (.label "b".toList)) ∧
    labels.find "a".toList = some 0x000005 ∧ labels.find "b".toList = none :=
  ⟨[("a".toList, 0x000005)], 5, [0x48, 0x06, 0x05, 0x00, 0x00], ⟨rfl, rfl⟩, ⟨rfl, _, _, rfl⟩, ⟨rfl, rfl⟩, ⟨rfl, rfl⟩,
    no_label_b, rfl, rfl⟩

end Sys2Proof.Tests
end

section
/-! SUPPORT. What the execute phase of an instruction can do to the state: one predicate with a case per kind of effect,
proved once for all 59 operations. What each instruction keeps is read from it. -/

namespace Sys2Proof.Machine

/-- The moves and logic operations, which clear CARRY when they complete (10_state R110). -/
def clearsCarry : Instr → Bool
  | .and1 .. | .and2 .. | .and3 .. | .or1 .. | .or2 .. | .or3 .. | .xor1 .. | .xor2 .. | .xor3 .. => true
  | .not1 _ | .not2 _ | .not3 _ | .tst1 .. | .tst2 .. | .tst3 .. | .mov1 .. | .mov2 .. | .mov3 .. => true
  | .loadi1 .. | .loadi2 .. | .loadi3 .. | .load1 .. | .load2 .. | .load3 .. => true
  | .store1 .. | .store2 .. | .store3 .. => true
  | _ => false

/-- `ExecEffect i s t`: `t` is one of the states the meaning of `i` may answer from `s`. The side conditions say which
instructions may write a flag, leave CARRY set, move `sp` or write memory (10_state R107, R110, 20_memory R202). -/
inductive ExecEffect (i : Instr) (s : State) : State → Prop
  /-- A view passes cell 8 (30_encoding R308). -/
  | registerFault : ExecEffect i s (s.raise .register (some i.code) none)
  /-- A byte of a data or stack access is not backed (60_exceptions R807). -/
  | accessFault (reason : FaultReason) (a : U24) (n : Nat) (hr : reason = .data ∨ reason = .stack)
      (hm : s.inMem a n = false) : ExecEffect i s (s.raise reason (some i.code) (s.firstBad a n))
  /-- Register cells and flags are written from a value computed, moved or loaded. -/
  | computes {w : Nat} (regs : Vector Byte 9) (v : Val w) (c : Bool) (hk : keepsFlags i = false)
      (hc : clearsCarry i = true → c = false) :
      ExecEffect i s ((({ s with regs := regs } : State).setFlags v c).complete (s.nextPc i.code))
  /-- A view is stored at a backed access. -/
  | stores {n : Nat} (a : U24) (v : Val n) (hm : s.inMem a n = true) (hk : keepsFlags i = false)
      (hw : writesMemory i = true) :
      ExecEffect i s (((s.memWrite a n v).setFlags v false).complete (s.nextPc i.code))
  /-- Only `pc` moves. -/
  | jumps (npc : U24) (hc : clearsCarry i = false) : ExecEffect i s (s.complete npc)
  /-- An item is pushed at a backed access. -/
  | pushes {n : Nat} (v : Val n) (npc : U24) (hm : s.inMem (s.pushAddr n) n = true) (hu : usesStack i = true)
      (hw : writesMemory i = true) (hc : clearsCarry i = false) :
      ExecEffect i s (({ s.memWrite (s.pushAddr n) n v with sp := s.pushAddr n } : State).complete npc)
  /-- An item is popped into register cells or `pc`. -/
  | pops (regs : Vector Byte 9) (sp npc : U24) (hu : usesStack i = true) (hc : clearsCarry i = false) :
      ExecEffect i s (({ s with regs := regs, sp := sp } : State).complete npc)
  /-- HLT. -/
  | halts (hi : i = .hlt) : ExecEffect i s (s.halt i.code)

/-! ## The effect of each shared operation -/

section
variable {i : Instr} {s : State} {w : Nat}

theorem execEffect_binary {f : Val w → Val w → Val w × Bool} {d r : Reg} (hk : keepsFlags i = false)
    (hc : clearsCarry i = true → ∀ a b, (f a b).2 = false) : ExecEffect i s (s.binary i.code w f d r) := by
  rcases s.binary_cases i.code w f d r with ⟨_, _, h⟩ | ⟨_, h⟩ <;> rw [h]
  · exact .computes (s.setReg d w _).regs _ _ hk (fun hi => hc hi _ _)
  · exact .registerFault

theorem execEffect_compare {f : Val w → Val w → Val w × Bool} {d r : Reg} (hk : keepsFlags i = false)
    (hc : clearsCarry i = true → ∀ a b, (f a b).2 = false) : ExecEffect i s (s.compare i.code w f d r) := by
  rcases s.compare_cases i.code w f d r with ⟨_, _, h⟩ | ⟨_, h⟩ <;> rw [h]
  · exact .computes s.regs _ _ hk (fun hi => hc hi _ _)
  · exact .registerFault

theorem execEffect_unary {f : Val w → Val w × Bool} {r : Reg} (hk : keepsFlags i = false)
    (hc : clearsCarry i = true → ∀ a, (f a).2 = false) : ExecEffect i s (s.unary i.code w f r) := by
  rcases s.unary_cases i.code w f r with ⟨_, h⟩ | ⟨_, h⟩ <;> rw [h]
  · exact .computes (s.setReg r w _).regs _ _ hk (fun hi => hc hi _)
  · exact .registerFault

theorem execEffect_immediate {f : Val w → Val w → Val w × Bool} {d : Reg} {imm : Val w}
    (hk : keepsFlags i = false) (hc : clearsCarry i = true → ∀ a b, (f a b).2 = false) :
    ExecEffect i s (s.immediate i.code w f d imm) := by
  rcases s.immediate_cases i.code w f d imm with ⟨_, h⟩ | ⟨_, h⟩ <;> rw [h]
  · exact .computes (s.setReg d w _).regs _ _ hk (fun hi => hc hi _ _)
  · exact .registerFault

theorem execEffect_load {d : Reg} {a : U24} (hk : keepsFlags i = false) :
    ExecEffect i s (s.load i.code w d a) := by
  rcases s.load_cases i.code w d a with ⟨_, _, h⟩ | ⟨_, hm, h⟩ | ⟨_, h⟩ <;> rw [h]
  · exact .computes (s.setReg d w _).regs _ _ hk (fun _ => rfl)
  · exact .accessFault .data a w (.inl rfl) hm
  · exact .registerFault

theorem execEffect_store {d : Reg} {a : U24} (hk : keepsFlags i = false) (hw : writesMemory i = true) :
    ExecEffect i s (s.store i.code w d a) := by
  rcases s.store_cases i.code w d a with ⟨_, hm, h⟩ | ⟨_, hm, h⟩ | ⟨_, h⟩ <;> rw [h]
  · exact .stores a _ hm hk hw
  · exact .accessFault .data a w (.inl rfl) hm
  · exact .registerFault

theorem execEffect_pushThen {v : Val w} {npc : U24} (hu : usesStack i = true) (hw : writesMemory i = true)
    (hc : clearsCarry i = false) :
    ExecEffect i s (s.pushThen i.code w v npc) := by
  rcases s.pushThen_cases i.code w v npc with ⟨hm, h⟩ | ⟨hm, h⟩ <;> rw [h]
  · exact .pushes v npc hm hu hw hc
  · exact .accessFault .stack _ w (.inr rfl) hm

theorem execEffect_push {r : Reg} (hu : usesStack i = true) (hw : writesMemory i = true)
    (hc : clearsCarry i = false) : ExecEffect i s (s.push i.code w r) := by
  rcases s.checkViews_cases i.code w [r] (s.pushThen i.code w (s.reg r w) (s.nextPc i.code)) with
    ⟨_, h⟩ | ⟨_, h⟩ <;> rw [State.push, h]
  · exact execEffect_pushThen hu hw hc
  · exact .registerFault

theorem execEffect_pop {r : Reg} (hu : usesStack i = true) (hc : clearsCarry i = false) :
    ExecEffect i s (s.pop i.code w r) := by
  rcases s.pop_cases i.code w r with ⟨_, _, h⟩ | ⟨_, hm, h⟩ | ⟨_, h⟩ <;> rw [h]
  · exact .pops (s.setReg r w _).regs _ _ hu hc
  · exact .accessFault .stack _ w (.inr rfl) hm
  · exact .registerFault

theorem execEffect_ret (hu : usesStack i = true) (hc : clearsCarry i = false) : ExecEffect i s (s.ret i.code) := by
  rcases s.ret_cases i.code with ⟨_, h⟩ | ⟨hm, h⟩ <;> rw [h]
  · exact .pops s.regs _ _ hu hc
  · exact .accessFault .stack _ 3 (.inr rfl) hm

end

/-! ## The effect of every instruction -/

/-- The execute phase always answers a next state, with one of the effects above. -/
theorem exec_next (i : Instr) (s : State) : ∃ t, exec i s = .next t ∧ ExecEffect i s t := by
  cases i with
  | add1 | add2 | add3 | sub1 | sub2 | sub3 => exact ⟨_, rfl, execEffect_binary rfl nofun⟩
  | and1 | and2 | and3 | or1 | or2 | or3 | xor1 | xor2 | xor3 | mov1 | mov2 | mov3 =>
    exact ⟨_, rfl, execEffect_binary rfl fun _ _ _ => rfl⟩
  | cmp1 | cmp2 | cmp3 => exact ⟨_, rfl, execEffect_compare rfl nofun⟩
  | tst1 | tst2 | tst3 => exact ⟨_, rfl, execEffect_compare rfl fun _ _ _ => rfl⟩
  | inc1 | inc2 | inc3 | dec1 | dec2 | dec3 => exact ⟨_, rfl, execEffect_unary rfl nofun⟩
  | not1 | not2 | not3 => exact ⟨_, rfl, execEffect_unary rfl fun _ _ => rfl⟩
  | addi1 | addi2 | addi3 => exact ⟨_, rfl, execEffect_immediate rfl nofun⟩
  | loadi1 | loadi2 | loadi3 => exact ⟨_, rfl, execEffect_immediate rfl fun _ _ _ => rfl⟩
  | load1 | load2 | load3 => exact ⟨_, rfl, execEffect_load rfl⟩
  | store1 | store2 | store3 => exact ⟨_, rfl, execEffect_store rfl rfl⟩
  | push1 | push2 | push3 => exact ⟨_, rfl, execEffect_push rfl rfl rfl⟩
  | pop1 | pop2 | pop3 => exact ⟨_, rfl, execEffect_pop rfl rfl⟩
  | jmp | jz | jnz | jc | jnc => exact ⟨_, rfl, .jumps _ rfl⟩
  | jsr => exact ⟨_, rfl, execEffect_pushThen rfl rfl rfl⟩
  | rts => exact ⟨_, rfl, execEffect_ret rfl rfl⟩
  | hlt => exact ⟨_, rfl, .halts rfl⟩

theorem execEffect_of_exec {i : Instr} {s t : State} (h : exec i s = .next t) : ExecEffect i s t := by
  obtain ⟨u, hu, he⟩ := exec_next i s
  obtain rfl : u = t := by simpa [hu] using h
  exact he

/-! ## What every effect keeps -/

section
variable {i : Instr} {s t : State}

theorem ExecEffect.cfg (h : ExecEffect i s t) : t.cfg = s.cfg := by cases h <;> rfl

/-- `sp` moves only by a push or a pop (10_state R107). -/
theorem ExecEffect.sp (h : ExecEffect i s t) (hi : usesStack i = false) : t.sp = s.sp := by
  cases h with
  | pushes _ _ _ hu | pops _ _ _ hu => simp [hi] at hu
  | _ => rfl

/-- Flags are written only where a value is computed or stored (10_state R110). -/
theorem ExecEffect.flagsKept (h : ExecEffect i s t) (hi : keepsFlags i = true) : FlagsKept s t := by
  cases h with
  | computes _ _ _ hk | stores _ _ _ hk => simp [hi] at hk
  | _ => exact ⟨rfl, rfl⟩

/-- An instruction that is listed to clear CARRY and does not fault writes the flags, with CARRY clear. -/
theorem ExecEffect.carry_eq_false (h : ExecEffect i s t) (hi : clearsCarry i = true) (ht : t.engine ≠ .faulted) :
    t.carry = false := by
  cases h with
  | registerFault | accessFault => exact absurd rfl ht
  | computes _ _ _ _ hc => exact hc hi
  | stores => rfl
  | jumps _ hc | pushes _ _ _ _ _ hc | pops _ _ _ _ hc => simp [hi] at hc
  | halts h => simp [h, clearsCarry] at hi

/-- A fault leaves the counter; everything else adds one to it and does not enter Faulted (10_state R113). -/
theorem ExecEffect.icount (h : ExecEffect i s t) :
    (t.engine = .faulted ∧ t.icount = s.icount) ∨
      ((t.engine = s.engine ∨ t.engine = .halted) ∧ t.icount = (s.icount + 1) % 2 ^ s.cfg.icountBits) := by
  cases h with
  | registerFault | accessFault => exact .inl ⟨rfl, rfl⟩
  | halts => exact .inr ⟨.inr rfl, rfl⟩
  | _ => exact .inr ⟨.inl rfl, rfl⟩

end

end Sys2Proof.Machine
end

section
/-! SUPPORT. The checks of the fetch: the trap each raises has the fields the table of 60_exceptions R803 gives its
reason. -/

namespace Sys2Proof

/-- The operand bytes of a format (30_encoding R304 to R310). -/
def Shape.operandBytes : Shape → Nat
  | .z _ => 0
  | .r _ _ | .rr _ _ => 1
  | .ri w _ => 1 + w
  | .ra _ _ => 4
  | .a _ => 3

/-- In every row of the opcode map the count field of the code is the operand bytes of the format (R301, R312). -/
theorem operandBytes_eq_operandCount :
    ∀ row ∈ opcodeMap, row.shape.operandBytes = operandCount row.code := by decide

theorem operandBytes_of_lookup {c : Code} {row : OpRow} (h : lookup c = some row) :
    row.shape.operandBytes = operandCount c := by
  have hc : row.code = c := by simpa using List.find?_some h
  rw [← hc]
  exact operandBytes_eq_operandCount row (List.mem_of_find?_eq_some h)

theorem decodeOneReg_ne_missing (w : Nat) (b : Byte) (mk : Reg → Instr) :
    decodeOneReg w b mk ≠ .error .missing := by
  unfold decodeOneReg
  split_ifs <;> simp

/-- Operand bytes in the number the format has are never too few or too many (R314 step 5). -/
theorem decodeOperands_ne_missing {sh : Shape} {bs : List Byte} (h : bs.length = sh.operandBytes) :
    decodeOperands sh bs ≠ .error .missing := by
  cases sh with
  | z i =>
    obtain rfl : bs = [] := List.length_eq_zero_iff.1 h
    simp [decodeOperands]
  | r w mk =>
    obtain ⟨b, rfl⟩ := List.length_eq_one_iff.1 h
    exact decodeOneReg_ne_missing w b mk
  | rr w mk =>
    obtain ⟨b, rfl⟩ := List.length_eq_one_iff.1 h
    rw [decodeOperands]
    split_ifs <;> simp
  | ri w mk =>
    obtain ⟨b, bs, rfl⟩ := List.exists_cons_of_length_pos (l := bs) (by simp [h, Shape.operandBytes])
    have hb : bs.length = w := by
      rw [Shape.operandBytes, List.length_cons] at h
      omega
    rw [decodeOperands, if_pos hb]
    exact decodeOneReg_ne_missing w b _
  | ra w mk =>
    obtain ⟨b, bs, rfl⟩ := List.exists_cons_of_length_pos (l := bs) (by simp [h, Shape.operandBytes])
    have hb : bs.length = 3 := by simpa [Shape.operandBytes] using h
    rw [decodeOperands, if_pos hb]
    exact decodeOneReg_ne_missing w b _
  | a mk =>
    have hb : bs.length = 3 := h
    simp [decodeOperands, hb]

end Sys2Proof

namespace Sys2Proof.Machine

/-- The fields of a trap fit its reason: no code exactly for Fetch, no address exactly for Unknown, Packing and
Register (60_exceptions R803). -/
def TrapOk (t : Trap) : Prop :=
  (t.code = none ↔ t.reason = .fetch) ∧
    (t.addr = none ↔ t.reason = .unknown ∨ t.reason = .packing ∨ t.reason = .register)

/-- The fault of an access that is not backed has an address to record (20_memory R204). -/
theorem State.firstBad_ne_none {s : State} {a : U24} {n : Nat} (h : s.inMem a n = false) : s.firstBad a n ≠ none :=
  Option.isSome_iff_ne_none.1 (State.firstBad_isSome h)

theorem trapOk_operandReason {e : OperandError} (c : Code) (he : e ≠ .missing) :
    TrapOk ⟨operandReason e, some c, none⟩ := by
  cases e with
  | missing => exact absurd rfl he
  | packing | register => simp [TrapOk, operandReason]

/-- Every trap of the fetch fits the table of R803 (40_datapath R400, 60_exceptions R806). -/
theorem State.fetch_trapOk {s : State} {t : Trap} (h : s.fetch = .error t) : TrapOk t := by
  rcases s.fetch_cases with ⟨hm, hf⟩ | ⟨_, _, hf⟩ | ⟨row, _, hrow, ⟨hm, hf⟩ | ⟨_, ⟨e, he, hf⟩ | ⟨i, _, hf⟩⟩⟩ <;>
    rw [hf] at h <;> cases h
  · simp [TrapOk, State.firstBad_ne_none hm]
  · simp [TrapOk]
  · simp [TrapOk, State.firstBad_ne_none hm]
  · apply trapOk_operandReason
    rintro rfl
    exact decodeOperands_ne_missing (by rw [State.length_readBytes, operandBytes_of_lookup hrow]) he

/-- Everything an enabled step can answer: the effect of the fetched instruction, or the fault of a fetch check. -/
theorem step_enabled_cases {s t : State} (hs : s.enabled = true) (h : step s = .next t) :
    (∃ i, s.fetch = .ok i ∧ ExecEffect i s.enter t) ∨
      ∃ e, s.fetch = .error e ∧ t = s.enter.raise e.reason e.code e.addr := by
  rcases step_cases s with ⟨hd, _⟩ | ⟨_, i, hi, he⟩ | ⟨_, e, hi, he⟩
  · simp [hs] at hd
  · exact .inl ⟨i, hi, execEffect_of_exec (he ▸ h)⟩
  · rw [he] at h
    cases h
    exact .inr ⟨e, hi, rfl⟩

theorem step_of_not_enabled {s : State} (hs : s.enabled = false) : step s = .next s := by
  simp [step, State.hostStep, hs]

theorem eq_of_step_of_not_enabled {s t : State} (hs : s.enabled = false) (h : step s = .next t) : t = s := by
  rw [step_of_not_enabled hs] at h
  cases h
  rfl

end Sys2Proof.Machine
end

section
/-! The invariant: canonical memory of backed addresses, a counter of `ICOUNT_BITS` bits, and a fault record exactly in
Faulted (10_state R112, R113, 20_memory R201, 60_exceptions R801 to R803). -/

namespace Sys2Proof.Machine

/-- The part of the invariant about memory: canonical form, and backed addresses only (20_memory R201). -/
abbrev MemOk (s : State) : Prop := s.mem.wf ∧ ∀ e ∈ s.mem, e.1 < s.cfg.memSize.1

/-- A checked write keeps memory canonical and backed (20_memory R206). -/
theorem memOk_memWrite {s : State} {a : U24} {n : Nat} (v : Val n) (h : MemOk s) (hm : s.inMem a n = true) :
    MemOk (s.memWrite a n v) := by
  refine ⟨Memory.wf_writeBytes h.1 _ _, fun e he => ?_⟩
  rcases Memory.mem_writeBytes he with ⟨k, hk, hek⟩ | he
  · rw [hek]
    exact (s.inMem_iff a n).1 hm k (by simpa using hk)
  · exact h.2 e he

/-- Taking a fault whose fields fit R803 keeps the invariant. -/
theorem inv_raise {s : State} {t : Trap} (hs : Inv s) (ht : TrapOk t) : Inv (s.raise t.reason t.code t.addr) := by
  obtain ⟨hwf, hback, hcount, _⟩ := hs
  exact ⟨hwf, hback, hcount, rfl, ⟨rfl, ht⟩, rfl⟩

/-- Completing an instruction outside Faulted keeps the invariant. -/
theorem inv_complete {s : State} (npc : U24) (hm : MemOk s) (hf : s.fault = none) (he : s.engine ≠ .faulted) :
    Inv (s.complete npc) := by
  have hfault : FaultOk (s.complete npc) := by simpa [FaultOk, hf] using he
  exact ⟨hm.1, hm.2, Nat.mod_lt _ (by positivity), hfault⟩

/-- The fault record is empty outside Faulted (10_state R112). -/
theorem fault_eq_none {s : State} (hs : Inv s) (he : s.engine ≠ .faulted) : s.fault = none := by
  obtain ⟨_, _, _, hf⟩ := hs
  cases h : s.fault with
  | none => rfl
  | some r => simp [FaultOk, h, he] at hf

/-- Entering Running keeps the invariant of an enabled engine. -/
theorem inv_enter {s : State} (hs : Inv s) (he : s.enabled = true) : Inv s.enter := by
  have hne : s.engine ≠ .faulted := by
    intro h
    simp [State.enabled, h] at he
  have hfault : FaultOk s.enter := by
    simp [FaultOk, fault_eq_none hs hne, State.enter_engine_of_enabled he]
  obtain ⟨hwf, hback, hcount, _⟩ := hs
  exact ⟨by simpa using hwf, by simpa using hback, by simpa using hcount, hfault⟩

/-- Every effect of an instruction keeps the invariant of a Running engine. -/
theorem inv_execEffect {i : Instr} {s t : State} (hs : Inv s) (he : s.engine = .running) (h : ExecEffect i s t) :
    Inv t := by
  have hne : s.engine ≠ .faulted := by simp [he]
  have hf : s.fault = none := fault_eq_none hs hne
  have hmem : MemOk s := ⟨hs.1, hs.2.1⟩
  cases h with
  | registerFault => exact inv_raise (t := ⟨.register, some i.code, none⟩) hs (by simp [TrapOk])
  | accessFault reason a n hr hm =>
    refine inv_raise (t := ⟨reason, some i.code, s.firstBad a n⟩) hs ?_
    rcases hr with rfl | rfl <;> simp [TrapOk, State.firstBad_ne_none hm]
  | computes | jumps | pops => exact inv_complete _ hmem hf hne
  | stores a v hm => exact inv_complete _ (memOk_memWrite v hmem hm) hf hne
  | pushes v npc hm => exact inv_complete _ (memOk_memWrite v hmem hm) hf hne
  | halts => exact inv_complete _ hmem hf nofun

/-- Settles O52, by the effect of the fetched instruction or the trap of the fetch. -/
theorem everyStepKeepsTheInvariant : Obligations.EveryStepKeepsTheInvariant := by
  intro s t hs hstep
  cases he : s.enabled with
  | false => rwa [eq_of_step_of_not_enabled he hstep]
  | true =>
    have henter := inv_enter hs he
    rcases step_enabled_cases he hstep with ⟨i, _, heff⟩ | ⟨e, hfetch, rfl⟩
    · exact inv_execEffect henter (State.enter_engine_of_enabled he) heff
    · exact inv_raise henter (State.fetch_trapOk hfetch)

/-- Creation with legal parameters establishes the invariant (10_state R116). -/
theorem inv_create {c : Config} (hc : ConfigOk c) : Inv (State.create c) := by
  have hfault : FaultOk (State.create c) := by
    show (State.create c).engine ≠ .faulted
    nofun
  exact ⟨hc.1, hc.2, Nat.two_pow_pos _, hfault⟩

/-- Settles O51: `State.reset` is creation with the default parameters, which are legal. -/
theorem invariantHoldsAtReset : Obligations.InvariantHoldsAtReset :=
  ⟨inv_create (by decide), fun _ hc => inv_create hc⟩

end Sys2Proof.Machine
end

section
/-! What the instructions do to the counter, the flags and `sp` (10_state R107, R110, R113), read from their effects. -/

namespace Sys2Proof.Machine

/-- Settles O45, by the effect of the fetched instruction or the trap of the fetch. -/
theorem instructionCounterCountsCompletions : Obligations.InstructionCounterCountsCompletions := by
  refine ⟨fun s t he hstep => ?_, fun s t he hstep => by rw [eq_of_step_of_not_enabled he hstep], fun _ => rfl,
    fun _ => rfl⟩
  rcases step_enabled_cases he hstep with ⟨i, _, heff⟩ | ⟨e, _, rfl⟩
  · rcases heff.icount with ⟨hfault, hcount⟩ | ⟨heng, hcount⟩
    · exact ⟨fun h => absurd hfault h, fun _ => by simpa using hcount⟩
    · have hne : t.engine ≠ .faulted := by
        rcases heng with h | h <;> simp [h, State.enter_engine_of_enabled he]
      exact ⟨fun _ => by simpa using hcount, fun h => absurd h hne⟩
  · exact ⟨fun h => absurd rfl h, fun _ => by simp⟩

theorem carry_eq_false_of_exec {i : Instr} {s t : State} (ht : t.engine ≠ .faulted) (hi : clearsCarry i = true)
    (h : exec i s = .next t) : t.carry = false :=
  (execEffect_of_exec h).carry_eq_false hi ht

/-- Settles O48: the listed moves and logic operations are those of `clearsCarry`. -/
theorem controlAndStackInstructionsKeepFlags : Obligations.ControlAndStackInstructionsKeepFlags := by
  refine ⟨fun i s t hi h => (execEffect_of_exec h).flagsKept hi, fun s t d r ht h => ?_,
    fun s t d a b1 b2 b3 ht h => ?_⟩
  · rcases h with h | h | h | h | h | h | h | h | h | h | h | h | h | h | h | h | h | h <;>
      exact carry_eq_false_of_exec ht rfl h
  · rcases h with h | h | h | h | h | h | h | h | h <;>
      exact carry_eq_false_of_exec ht rfl h

/-- Settles O49. -/
theorem onlyStackInstructionsMoveSp : Obligations.OnlyStackInstructionsMoveSp :=
  ⟨fun _ _ _ hi h => (execEffect_of_exec h).sp hi, fun _ _ _ h => (execEffect_of_exec h).cfg⟩

end Sys2Proof.Machine
end

section
/-! The bytes of a value as a sum and as bit fields, and the register views of 10_state R103. -/

namespace Sys2Proof

/-- Byte `k` of a number has weight `2^(8k)` (20_memory R205, R207). -/
theorem leNat_map_range (f : Nat → Byte) (n : Nat) :
    leNat ((List.range n).map f) = ∑ k ∈ Finset.range n, (f k).toNat * 2 ^ (8 * k) := by
  induction n generalizing f with
  | zero => rfl
  | succ n ih =>
    have htail : 256 * ∑ k ∈ Finset.range n, (f (k + 1)).toNat * 2 ^ (8 * k) =
        ∑ k ∈ Finset.range n, (f (k + 1)).toNat * 2 ^ (8 * (k + 1)) := by
      rw [Finset.mul_sum]
      refine Finset.sum_congr rfl fun k _ => ?_
      ring
    have hrec := ih (fun k => f (k + 1))
    rw [List.range_succ_eq_map, List.map_cons, List.map_map, leNat, Finset.sum_range_succ', ← htail, ← hrec]
    simp [Function.comp_def, Nat.add_comm]

theorem getElem_leBytes (n v k : Nat) (h : k < (leBytes n v).length) :
    (leBytes n v)[k] = BitVec.ofNat 8 (v / 256 ^ k) := by
  induction n generalizing v k with
  | zero => simp at h
  | succ n ih =>
    cases k with
    | zero => simp [leBytes]
    | succ k => simp [leBytes, ih, Nat.div_div_eq_div_mul, pow_succ']

/-- Byte `k` of a value is its bits `8k+7 : 8k` (10_state R103, 20_memory R206). -/
theorem getElem_toBytes {w : Nat} (v : Val w) (k : Nat) (h : k < (toBytes w v).length) :
    (toBytes w v)[k] = v.extractLsb' (8 * k) 8 := by
  apply BitVec.eq_of_toNat_eq
  simp only [toBytes, getElem_leBytes, BitVec.toNat_ofNat, BitVec.extractLsb'_toNat, Nat.shiftRight_eq_div_pow,
    pow_bits]

end Sys2Proof

namespace Sys2Proof.Machine

/-- `reg(i, w)` as the sum of R103; no check on the view is needed to read. -/
theorem State.toNat_reg (s : State) (r : Reg) (w : Nat) :
    (s.reg r w).toNat = ∑ k ∈ Finset.range w, (s.cell (r.toNat + k)).toNat * 2 ^ (8 * k) := by
  rw [State.reg_eq, toNat_ofBytes (s.length_viewBytes r w), State.viewBytes, leNat_map_range]

/-- Settles O8. -/
theorem registerViewsAreLittleEndian : Obligations.RegisterViewsAreLittleEndian := by
  intro s r w hv
  refine ⟨s.toNat_reg r w, fun v => ⟨fun k hk => ?_, fun _ _ hk => State.cell_setReg_outside hk⟩⟩
  rw [State.cell_setReg_inside hv hk, getElem_toBytes]

end Sys2Proof.Machine
end

section
/-! The host's operations at creation, at reset and in a terminal state (10_state R109, R111, R116, 70_reset R900,
R903, R910). -/

namespace Sys2Proof.Machine

theorem State.create_cell (c : Config) {k : Nat} (hk : k < numCells) : (State.create c).cell k = 0#8 := by
  have h9 : k < 9 := hk
  simp [State.cell, State.create, h9]

theorem State.hostReset_cell (s : State) {k : Nat} (hk : k < numCells) : s.hostReset.cell k = 0#8 :=
  State.create_cell s.cfg hk

/-- An accepted load: the image is no longer than memory, and only memory changes (R903). -/
theorem State.hostLoad_eq_some {s t : State} {image : List Byte} {start : U24}
    (h : s.hostLoad image start = some t) :
    image.length ≤ s.cfg.memSize.1 ∧ t = { s with mem := s.mem.writeBytes start image } := by
  unfold State.hostLoad at h
  split at h
  next hc => exact ⟨hc.2.1, (Option.some.inj h).symm⟩
  next => cases h

/-- The bytes of a loaded image stand from its start on (R903). -/
theorem State.byteAt_hostLoad_inside {s t : State} {image : List Byte} {start : U24}
    (h : s.hostLoad image start = some t) {k : Nat} (hk : k < image.length) :
    t.byteAt (start + BitVec.ofNat 24 k) = image[k] := by
  obtain ⟨hlen, rfl⟩ := State.hostLoad_eq_some h
  exact Memory.read_writeBytes _ _ _ (hlen.trans s.cfg.memSize.2.2) k hk

/-- A load changes no byte outside its image (R903). -/
theorem State.byteAt_hostLoad_outside {s t : State} {image : List Byte} {start : U24}
    (h : s.hostLoad image start = some t) {a : U24} (ha : ∀ k, k < image.length → a ≠ start + BitVec.ofNat 24 k) :
    t.byteAt a = s.byteAt a := by
  obtain ⟨_, rfl⟩ := State.hostLoad_eq_some h
  exact Memory.read_writeBytes_of_ne _ _ _ _ ha

/-- Settles O1. -/
theorem resetLeavesTheStatedValues : Obligations.ResetLeavesTheStatedValues := by
  refine ⟨fun c => ⟨rfl, rfl, rfl, rfl, rfl, fun _ hk => State.create_cell c hk, rfl, rfl, rfl⟩, ?_,
    fun s => ⟨rfl, rfl, rfl, rfl, rfl, fun _ hk => s.hostReset_cell hk, rfl, rfl, rfl⟩, rfl, rfl, fun _ => rfl⟩
  intro c image t h
  refine ⟨fun k hk => by simpa using State.byteAt_hostLoad_inside h hk, fun a ha => ?_⟩
  refine State.byteAt_hostLoad_outside h fun k hk hak => ?_
  have hmod : a.toNat = k % 2 ^ 24 := by simp [hak]
  have hle := Nat.mod_le k (2 ^ 24)
  omega

/-- Halted and Faulted are terminal: no step, load or run changes them (10_state R111, 70_reset R910). -/
theorem terminal_unchanged {s : State} (h : s.engine = .halted ∨ s.engine = .faulted) :
    step s = .next s ∧ (∀ image a, s.hostLoad image a = none) ∧ ∀ cap, (s.hostRun cap).1 = s := by
  have hidle : s.engine ≠ .idle := by rcases h with h | h <;> simp [h]
  have hstep : s.enabled = false := by rcases h with h | h <;> simp [State.enabled, h]
  exact ⟨step_of_not_enabled hstep, fun _ _ => by simp [State.hostLoad, hidle],
    fun _ => by simp [State.hostRun, hidle]⟩

/-- Settles O2. -/
theorem onlyResetLeavesATerminalState : Obligations.OnlyResetLeavesATerminalState :=
  ⟨fun s => ⟨rfl, rfl, rfl, rfl, rfl, rfl, fun _ hk => s.hostReset_cell hk, rfl, rfl, rfl⟩, fun _ => rfl,
    fun _ => rfl, fun _ h => terminal_unchanged h⟩

/-- The layout of R109, one case per value of the two flags. -/
theorem flagBits_layout (z c : Bool) :
    (BitVec.ofNat 8 (z.toNat + 2 * c.toNat)).getLsbD 0 = z ∧
      (BitVec.ofNat 8 (z.toNat + 2 * c.toNat)).getLsbD 1 = c ∧
      (BitVec.ofNat 8 (z.toNat + 2 * c.toNat)).extractLsb' 2 6 = 0#6 := by
  cases z <;> cases c <;> decide

/-- Settles O6. -/
theorem flagsByteLayout : Obligations.FlagsByteLayout := by
  intro s
  obtain ⟨hz, hc, h0⟩ := flagBits_layout s.zero s.carry
  exact ⟨hz, hc, h0, rfl⟩

end Sys2Proof.Machine
end

section
/-! Memory accesses: `inMem` and `firstBad` in the numbers of 20_memory R203 and R204, the bytes of a write (R206), and
which instructions write (R202). -/

namespace Sys2Proof.Machine

/-- Address `k` of an access as a number (20_memory R203). -/
theorem toNat_accessAddr (a : U24) (k : Nat) : (a + BitVec.ofNat 24 k).toNat = (a.toNat + k) % 2 ^ 24 := by
  simp

theorem State.firstBad_eq_none_iff (s : State) (a : U24) (n : Nat) : s.firstBad a n = none ↔ s.inMem a n = true := by
  simp [State.firstBad, State.inMem]

/-- `firstBad` in the words of 20_memory R204: the address at the first `k` that is not backed. -/
theorem State.firstBad_eq_some_iff (s : State) (a b : U24) (n : Nat) :
    s.firstBad a n = some b ↔ ∃ k, k < n ∧ b = a + BitVec.ofNat 24 k ∧ s.backed b = false ∧
      ∀ j, j < k → s.backed (a + BitVec.ofNat 24 j) = true := by
  rw [State.firstBad, accessAddrs_eq, List.find?_map, Option.map_eq_some_iff]
  refine exists_congr fun k => ?_
  rw [List.find?_range_eq_some]
  constructor
  · rintro ⟨⟨hbad, hk, hbefore⟩, rfl⟩
    exact ⟨List.mem_range.1 hk, rfl, by simpa using hbad, by simpa using hbefore⟩
  · rintro ⟨hk, rfl, hbad, hbefore⟩
    exact ⟨⟨by simpa using hbad, List.mem_range.2 hk, by simpa using hbefore⟩, rfl⟩

/-- Settles O9: the addresses of an access and the test of R201, each as a number. -/
theorem backedAccessesAndFirstBadAddress : Obligations.BackedAccessesAndFirstBadAddress := by
  intro s a n
  refine ⟨?_, fun b => ?_, s.firstBad_eq_none_iff a n, rfl⟩
  · simp only [State.inMem_iff, toNat_accessAddr]
  · simp only [State.firstBad_eq_some_iff, State.backed, decide_eq_false_iff_not, decide_eq_true_eq, not_lt,
      ← BitVec.toNat_inj, toNat_accessAddr]

/-- Settles O10: three bytes do not lap the address space, so each byte written stays. -/
theorem memWriteSetsExactlyItsBytes : Obligations.MemWriteSetsExactlyItsBytes := by
  intro s a n v hn
  have hlap : n ≤ 2 ^ 24 := hn.trans (by norm_num)
  refine ⟨fun k hk => ?_, fun _ hb => State.byteAt_memWrite_outside hb, State.memRead_memWrite hlap,
    fun hwf => Memory.wf_writeBytes hwf _ _, rfl⟩
  rw [State.byteAt_memWrite_inside hlap hk, getElem_toBytes]

/-- Memory is written only by a store or a push (20_memory R202). -/
theorem ExecEffect.mem {i : Instr} {s t : State} (h : ExecEffect i s t) (hi : writesMemory i = false) :
    t.mem = s.mem := by
  cases h with
  | stores _ _ _ _ hw | pushes _ _ _ _ hw => simp [hi] at hw
  | _ => rfl

theorem memKept_of_mem_eq {s t : State} (h : t.mem = s.mem) : MemKept s t := fun a => by
  rw [State.byteAt, h, State.byteAt]

/-- Settles O50. -/
theorem onlyStoresPushesAndCallsWriteMemory : Obligations.OnlyStoresPushesAndCallsWriteMemory :=
  fun _ _ _ hi h => memKept_of_mem_eq ((execEffect_of_exec h).mem hi)

end Sys2Proof.Machine
end

section
/-! The opcode map, the decoder and the encoder (30_encoding R300 to R320). What a row of the map says about the
instructions its format builds is proved once for all 59 rows; the decoder's answers are then read from the format. -/

namespace Sys2Proof

/-! ## The rows of the opcode map -/

/-- The instructions a format builds. -/
def Shape.Makes : Shape → Instr → Prop
  | .z j, i => i = j
  | .r _ mk, i => ∃ r, i = mk r
  | .rr _ mk, i => ∃ d s, i = mk d s
  | .ri _ mk, i => ∃ d imm, i = mk d imm
  | .ra _ mk, i => ∃ d addr, i = mk d addr
  | .a mk, i => ∃ addr, i = mk addr

/-- `sh.Lawful c`: every instruction the format builds has code `c`, the register check of its fields (R308) and the
operand bytes of its format (R304 to R310). -/
def Shape.Lawful (c : Code) : Shape → Prop
  | .z i => i.code = c ∧ i.wf = true ∧ i.operands = []
  | .r w mk => ∀ r, (mk r).code = c ∧ (mk r).wf = viewOk w r ∧ (mk r).operands = [nibbles 0#4 r]
  | .rr w mk => ∀ d s, (mk d s).code = c ∧ (mk d s).wf = (viewOk w d && viewOk w s) ∧
      (mk d s).operands = [nibbles s d]
  | .ri w mk => ∀ d imm, (mk d imm).code = c ∧ (mk d imm).wf = viewOk w d ∧
      (mk d imm).operands = nibbles 0#4 d :: toBytes w imm
  | .ra w mk => ∀ d addr, (mk d addr).code = c ∧ (mk d addr).wf = viewOk w d ∧
      (mk d addr).operands = nibbles 0#4 d :: addrBytes addr
  | .a mk => ∀ addr, (mk addr).code = c ∧ (mk addr).wf = true ∧ (mk addr).operands = addrBytes addr

/-- Each of the 59 rows agrees with the encoder and the register check (R312). -/
theorem lawful_of_mem : ∀ row ∈ opcodeMap, row.shape.Lawful row.code := by
  simp only [opcodeMap, List.forall_mem_cons, List.not_mem_nil, IsEmpty.forall_iff, implies_true, and_true,
    Shape.Lawful]
  and_intros <;> intros <;> and_intros <;> rfl

/-- No two of the 59 rows have one code (R312, R313). -/
theorem nodup_codes : (opcodeMap.map OpRow.code).Nodup := by decide

/-- Looking a code up gives the one row of the map that has it (R303, R314 step 3). -/
theorem lookup_eq_some_iff {c : Code} {row : OpRow} : lookup c = some row ↔ row ∈ opcodeMap ∧ row.code = c := by
  constructor
  · intro h
    exact ⟨List.mem_of_find?_eq_some h, by simpa using List.find?_some h⟩
  · rintro ⟨hmem, rfl⟩
    obtain ⟨found, hfound⟩ : ∃ found, lookup row.code = some found :=
      Option.isSome_iff_exists.1 (List.find?_isSome.2 ⟨row, hmem, by simp⟩)
    have hcode : found.code = row.code := by simpa using List.find?_some hfound
    rw [hfound, List.inj_on_of_nodup_map nodup_codes (List.mem_of_find?_eq_some hfound) hmem hcode]

/-- Every instruction is built by a row with its code. -/
theorem exists_row (i : Instr) : ∃ row ∈ opcodeMap, row.code = i.code ∧ row.shape.Makes i := by
  obtain ⟨row, hlookup, hmakes⟩ : ∃ row, lookup i.code = some row ∧ row.shape.Makes i := by
    cases i with
    | rts | hlt => exact ⟨_, rfl, rfl⟩
    | inc1 | inc2 | inc3 | dec1 | dec2 | dec3 | not1 | not2 | not3 | push1 | push2 | push3 | pop1 | pop2 | pop3 | jmp
    | jz | jnz | jc | jnc | jsr => exact ⟨_, rfl, _, rfl⟩
    | _ => exact ⟨_, rfl, _, _, rfl⟩
  obtain ⟨hmem, hcode⟩ := lookup_eq_some_iff.1 hlookup
  exact ⟨row, hmem, hcode, hmakes⟩

section
variable {sh : Shape} {c : Code} {i : Instr}

theorem Shape.Lawful.code_of_makes (hl : sh.Lawful c) (hm : sh.Makes i) : i.code = c := by
  cases sh with
  | z j => exact hm ▸ hl.1
  | r w mk => obtain ⟨r, rfl⟩ := hm; exact (hl r).1
  | rr w mk => obtain ⟨d, s, rfl⟩ := hm; exact (hl d s).1
  | ri w mk => obtain ⟨d, imm, rfl⟩ := hm; exact (hl d imm).1
  | ra w mk => obtain ⟨d, addr, rfl⟩ := hm; exact (hl d addr).1
  | a mk => obtain ⟨addr, rfl⟩ := hm; exact (hl addr).1

theorem Shape.Lawful.length_operands (hl : sh.Lawful c) (hm : sh.Makes i) :
    i.operands.length = sh.operandBytes := by
  cases sh with
  | z j =>
    obtain rfl := hm
    obtain ⟨_, _, hops⟩ := hl
    rw [hops, List.length_nil, Shape.operandBytes]
  | r w mk =>
    obtain ⟨r, rfl⟩ := hm
    obtain ⟨_, _, hops⟩ := hl r
    rw [hops, List.length_singleton, Shape.operandBytes]
  | rr w mk =>
    obtain ⟨d, s, rfl⟩ := hm
    obtain ⟨_, _, hops⟩ := hl d s
    rw [hops, List.length_singleton, Shape.operandBytes]
  | ri w mk =>
    obtain ⟨d, imm, rfl⟩ := hm
    obtain ⟨_, _, hops⟩ := hl d imm
    rw [hops, List.length_cons, length_toBytes, Shape.operandBytes, Nat.add_comm]
  | ra w mk =>
    obtain ⟨d, addr, rfl⟩ := hm
    obtain ⟨_, _, hops⟩ := hl d addr
    rw [hops, List.length_cons, length_addrBytes, Shape.operandBytes]
  | a mk =>
    obtain ⟨addr, rfl⟩ := hm
    obtain ⟨_, _, hops⟩ := hl addr
    rw [hops, length_addrBytes, Shape.operandBytes]

end

/-- An instruction has as many operand bytes as bits 11:9 of its code say (R301). -/
theorem length_operands (i : Instr) : i.operands.length = operandCount i.code := by
  obtain ⟨row, hmem, hcode, hmakes⟩ := exists_row i
  rw [(lawful_of_mem row hmem).length_operands hmakes, operandBytes_eq_operandCount row hmem, hcode]

/-! ## The operand bytes -/

theorem decodeOneReg_eq_ok_iff {w : Nat} {b : Byte} {mk : Reg → Instr} {i : Instr} :
    decodeOneReg w b mk = .ok i ↔ ∃ r, b = nibbles 0#4 r ∧ viewOk w r = true ∧ i = mk r := by
  constructor
  · intro h
    unfold decodeOneReg at h
    split at h
    next => cases h
    next hhigh =>
      split at h
      next hview =>
        refine ⟨lowNibble b, ?_, hview, (Except.ok.inj h).symm⟩
        rw [← not_not.1 hhigh, nibbles_high_low]
      next => cases h
  · rintro ⟨r, rfl, hview, rfl⟩
    simp [decodeOneReg, hview]

/-- What the operand decoder accepts is a well-formed instruction of the format, with its operand bytes (R304 to
R310, R314 step 5). -/
theorem makes_of_decodeOperands {sh : Shape} {c : Code} {ops : List Byte} {i : Instr} (hl : sh.Lawful c)
    (h : decodeOperands sh ops = .ok i) : sh.Makes i ∧ i.wf = true ∧ ops = i.operands := by
  unfold decodeOperands at h
  split at h
  next j =>
    obtain rfl := Except.ok.inj h
    exact ⟨rfl, hl.2.1, hl.2.2.symm⟩
  next w mk b =>
    obtain ⟨r, rfl, hview, rfl⟩ := decodeOneReg_eq_ok_iff.1 h
    obtain ⟨_, hwf, hops⟩ := hl r
    exact ⟨⟨r, rfl⟩, hwf.trans hview, hops.symm⟩
  next w mk b =>
    split at h
    next hview =>
      obtain rfl := Except.ok.inj h
      obtain ⟨_, hwf, hops⟩ := hl (lowNibble b) (highNibble b)
      exact ⟨⟨_, _, rfl⟩, hwf.trans hview, by rw [hops, nibbles_high_low]⟩
    next => cases h
  next w mk b bs =>
    split at h
    next hlen =>
      obtain ⟨r, rfl, hview, rfl⟩ := decodeOneReg_eq_ok_iff.1 h
      obtain ⟨_, hwf, hops⟩ := hl r (ofBytes w bs)
      exact ⟨⟨_, _, rfl⟩, hwf.trans hview, by rw [hops, toBytes_ofBytes hlen]⟩
    next => cases h
  next w mk b bs =>
    split at h
    next hlen =>
      obtain ⟨r, rfl, hview, rfl⟩ := decodeOneReg_eq_ok_iff.1 h
      obtain ⟨_, hwf, hops⟩ := hl r (addrOfBytes bs)
      exact ⟨⟨_, _, rfl⟩, hwf.trans hview, by rw [hops, addrBytes_addrOfBytes hlen]⟩
    next => cases h
  next mk =>
    split at h
    next hlen =>
      obtain rfl := Except.ok.inj h
      obtain ⟨_, hwf, hops⟩ := hl (addrOfBytes ops)
      exact ⟨⟨_, rfl⟩, hwf, by rw [hops, addrBytes_addrOfBytes hlen]⟩
    next => cases h
  next => cases h

/-- The operand decoder reads an instruction's own operand bytes back (R304 to R310, R320). -/
theorem decodeOperands_operands {sh : Shape} {c : Code} {i : Instr} (hl : sh.Lawful c) (hm : sh.Makes i)
    (hwf : i.wf = true) : decodeOperands sh i.operands = .ok i := by
  cases sh with
  | z j =>
    obtain rfl := hm
    rw [hl.2.2]
    rfl
  | r w mk =>
    obtain ⟨r, rfl⟩ := hm
    obtain ⟨_, hview, hops⟩ := hl r
    rw [hops]
    exact decodeOneReg_eq_ok_iff.2 ⟨r, rfl, hview ▸ hwf, rfl⟩
  | rr w mk =>
    obtain ⟨d, s, rfl⟩ := hm
    obtain ⟨_, hview, hops⟩ := hl d s
    rw [hview] at hwf
    rw [hops, decodeOperands, lowNibble_nibbles, highNibble_nibbles, if_pos hwf]
  | ri w mk =>
    obtain ⟨d, imm, rfl⟩ := hm
    obtain ⟨_, hview, hops⟩ := hl d imm
    rw [hops, decodeOperands, if_pos (length_toBytes w imm), ofBytes_toBytes]
    exact decodeOneReg_eq_ok_iff.2 ⟨d, rfl, hview ▸ hwf, rfl⟩
  | ra w mk =>
    obtain ⟨d, addr, rfl⟩ := hm
    obtain ⟨_, hview, hops⟩ := hl d addr
    rw [hops, decodeOperands, if_pos (length_addrBytes addr), addrOfBytes_addrBytes]
    exact decodeOneReg_eq_ok_iff.2 ⟨d, rfl, hview ▸ hwf, rfl⟩
  | a mk =>
    obtain ⟨addr, rfl⟩ := hm
    obtain ⟨_, _, hops⟩ := hl addr
    rw [hops, decodeOperands, if_pos (length_addrBytes addr), addrOfBytes_addrBytes]

/-! ## The decoder and the encoder -/

/-- The decoder's contract (R314) as one fact: the word, its row, and the operand bytes its count field asks for. -/
theorem decode_eq_ok_iff_operands {bs rest : List Byte} {i : Instr} :
    decode bs = .ok (i, rest) ↔ ∃ c row ops, bs = toBytes 2 c ++ ops ++ rest ∧ lookup c = some row ∧
      ops.length = operandCount c ∧ decodeOperands row.shape ops = .ok i := by
  constructor
  · intro h
    unfold decode at h
    split at h
    next lo hi tail =>
      simp only at h
      split at h
      next => cases h
      next row hrow =>
        split at h
        next => cases h
        next hlen =>
          split at h
          next j hops =>
            obtain ⟨rfl, rfl⟩ := Prod.mk.inj (Except.ok.inj h)
            refine ⟨_, row, _, ?_, hrow, List.length_take_of_le (not_lt.1 hlen), hops⟩
            rw [List.append_assoc, List.take_append_drop]
            exact congrArg (· ++ tail) (toBytes_ofBytes (w := 2) (bs := [lo, hi]) rfl).symm
          next => cases h
    next => cases h
  · rintro ⟨c, row, ops, rfl, hrow, hlen, hops⟩
    have hword : BitVec.ofNat 16 (leNat (toBytes 2 c)) = c := ofBytes_toBytes 2 c
    obtain ⟨lo, hi, hbytes⟩ := List.length_eq_two.1 (length_toBytes 2 c)
    rw [hbytes] at hword ⊢
    simp [decode, hword, hrow, ← hlen, hops]

/-- The decoder accepts exactly the encodings of well-formed instructions, and leaves the bytes after them (R320). -/
theorem decode_eq_ok_iff {bs rest : List Byte} {i : Instr} :
    decode bs = .ok (i, rest) ↔ i.wf = true ∧ bs = encode i ++ rest := by
  rw [decode_eq_ok_iff_operands]
  constructor
  · rintro ⟨c, row, ops, rfl, hlookup, -, hops⟩
    obtain ⟨hmem, rfl⟩ := lookup_eq_some_iff.1 hlookup
    have hl := lawful_of_mem row hmem
    obtain ⟨hmakes, hwf, rfl⟩ := makes_of_decodeOperands hl hops
    exact ⟨hwf, by rw [encode, hl.code_of_makes hmakes, toBytes]⟩
  · rintro ⟨hwf, rfl⟩
    obtain ⟨row, hmem, hcode, hmakes⟩ := exists_row i
    exact ⟨i.code, row, i.operands, rfl, lookup_eq_some_iff.2 ⟨hmem, hcode⟩, length_operands i,
      decodeOperands_operands (lawful_of_mem row hmem) hmakes hwf⟩

theorem decode_encode_append {i : Instr} (hwf : i.wf = true) (rest : List Byte) :
    decode (encode i ++ rest) = .ok (i, rest) :=
  decode_eq_ok_iff.2 ⟨hwf, rfl⟩

theorem take_two_encode (i : Instr) : (encode i).take 2 = leBytes 2 i.code.toNat :=
  List.take_left' (length_leBytes 2 _)

/-- The instruction of a format whose operands are all 0. -/
def Shape.zeroOperands : Shape → Instr
  | .z i => i
  | .r _ mk => mk 0#4
  | .rr _ mk => mk 0#4 0#4
  | .ri w mk => mk 0#4 0#(8 * w)
  | .ra _ mk => mk 0#4 0#24
  | .a mk => mk 0#24

/-- No code of the map is without a well-formed instruction: register 0 is a legal view of every width (R308). -/
theorem zeroOperands_of_mem :
    ∀ row ∈ opcodeMap, row.shape.zeroOperands.wf = true ∧ row.shape.zeroOperands.code = row.code := by decide

/-- Settles O54. -/
theorem decodeAndEncodeAgree : Obligations.DecodeAndEncodeAgree := by
  refine ⟨fun _ rest hwf => decode_encode_append hwf rest, fun _ _ _ h => decode_eq_ok_iff.1 h, fun row hmem => ?_⟩
  obtain ⟨hwf, hcode⟩ := zeroOperands_of_mem row hmem
  exact ⟨row.shape.zeroOperands, hwf, hcode, by simpa using decode_encode_append hwf [],
    hcode ▸ take_two_encode row.shape.zeroOperands⟩

/-! ## Lengths, codes and rows -/

theorem length_encode (i : Instr) : (encode i).length = codeLength i.code := by
  rw [encode, List.length_append, length_leBytes, length_operands, codeLength]

/-- The field N as a quotient (R301, R302). -/
theorem operandCount_eq (c : Code) : operandCount c = c.toNat / 512 % 8 := by
  simp [operandCount, Nat.shiftRight_eq_div_pow]

/-- The two bytes of a code, low byte first (R300). -/
theorem leBytes_code (c : Code) : leBytes 2 c.toNat = [c.extractLsb' 0 8, c.extractLsb' 8 8] := by
  refine List.ext_getElem (by simp) fun k hk _ => ?_
  have hk2 : k < 2 := by simpa using hk
  rw [show (leBytes 2 c.toNat)[k] = c.extractLsb' (8 * k) 8 from getElem_toBytes (w := 2) c k hk]
  interval_cases k <;> rfl

/-- Settles O57: the 59 codes of the map, field by field. -/
theorem malformedCodesAreInvalid : Obligations.MalformedCodesAreInvalid := by
  unfold Obligations.MalformedCodesAreInvalid
  decide

/-- Settles O56. -/
theorem lengthIsReadFromTheCode : Obligations.LengthIsReadFromTheCode := by
  refine ⟨fun i => ?_, fun i => (take_two_encode i).trans (leBytes_code i.code)⟩
  rw [← operandCount_eq, length_encode, codeLength]
  obtain ⟨row, hmem, hcode, _⟩ := exists_row i
  obtain ⟨_, hcount, _⟩ := malformedCodesAreInvalid row hmem
  exact ⟨rfl, hcode ▸ hcount⟩

/-- The rows stand in the order of the constructors of `Instr`. -/
theorem findIdx_code (i : Instr) : opcodeMap.findIdx (fun row => row.code == i.code) = i.ctorIdx := by
  cases i <;> rfl

/-- Settles O55. -/
theorem opcodeMapIsABijection : Obligations.OpcodeMapIsABijection := by
  refine ⟨rfl, nodup_codes, fun row hmem => lookup_eq_some_iff.2 ⟨hmem, rfl⟩, fun i => ?_, fun row hmem => ?_,
    fun i j h => ⟨?_, ?_⟩⟩
  · obtain ⟨row, hmem, hcode, _⟩ := exists_row i
    exact ⟨row, hmem, hcode⟩
  · exact ⟨_, (zeroOperands_of_mem row hmem).2⟩
  · rw [← findIdx_code, ← findIdx_code, h]
  · rw [length_encode, length_encode, h]

/-- Settles O58: by `decode_eq_ok_iff` each clause says that the printed instruction is well-formed and encodes to the
printed bytes. -/
theorem sampleWordsDecodeAsThePrintedTable : Obligations.SampleWordsDecodeAsThePrintedTable := by
  simp only [Obligations.SampleWordsDecodeAsThePrintedTable, decode_eq_ok_iff]
  refine ⟨?_, ?_, ?_, ?_, ?_, ?_⟩ <;> decide

end Sys2Proof
end

section
/-! The register check in the execute phase (10_state R104, 30_encoding R308). -/

namespace Sys2Proof.Machine

section
variable {s done : State} {c : Code} {w : Nat} {d r : Reg}

/-- A failed register check is the Register fault, whatever the instruction would have done (R308). -/
theorem answersFault_of_badView (h : viewOk w r = false) :
    AnswersFault (.next (s.checkViews c w [r] done)) s .invalidInstruction .register (some c) none :=
  ⟨_, rfl, by
    rw [State.checkViews_of_bad (by simp [h])]
    exact takesFault_raise s .register (some c) none⟩

/-- In format RR either field may fail the check (R308). -/
theorem answersFault_of_badViews (h : (viewOk w d && viewOk w r) = false) :
    AnswersFault (.next (s.checkViews c w [d, r] done)) s .invalidInstruction .register (some c) none :=
  ⟨_, rfl, by
    rw [State.checkViews_of_bad (by simpa using h)]
    exact takesFault_raise s .register (some c) none⟩

end

/-- Settles O40: every meaning with a register field begins with the register check; one without such a field is
well-formed. -/
theorem registerPastCellEightFaults : Obligations.RegisterPastCellEightFaults := by
  intro i s h
  cases i with
  | jmp | jz | jnz | jc | jnc | jsr | rts | hlt => cases h
  | add1 | add2 | add3 | sub1 | sub2 | sub3 | and1 | and2 | and3 | or1 | or2 | or3 | xor1 | xor2 | xor3 | cmp1 | cmp2
  | cmp3 | tst1 | tst2 | tst3 | mov1 | mov2 | mov3 => exact answersFault_of_badViews h
  | _ => exact answersFault_of_badView h

end Sys2Proof.Machine
end

section
/-! The assembler (30_encoding R319 to R334). What each pass does with one line is one relation; the statements about
whole programs follow by induction on the lines. -/

namespace Sys2Proof.Asm

/-! ## Parsed instructions -/

/-- A parsed instruction is of the operation with code `c` and passes the register check, whatever address a label it
awaits gets. -/
def AsmInstr.Fits (c : Code) : AsmInstr → Prop
  | .resolved i => i.wf = true ∧ i.code = c
  | .awaiting _ mk => ∀ addr, (mk addr).wf = true ∧ (mk addr).code = c

/-- A register operand passes the check of R308 (R326). -/
theorem viewOk_of_parseReg {w : Nat} {token : Text} {r : Reg} (h : parseReg w token = some r) :
    viewOk w r = true := by
  unfold parseReg at h
  split at h
  next =>
    split at h
    next hview => exact Option.some.inj h ▸ hview
    next => cases h
  next => cases h

theorem fits_withTarget {c : Code} {mk : U24 → Instr} (h : ∀ addr, (mk addr).wf = true ∧ (mk addr).code = c)
    (target : Target) : (withTarget mk target).Fits c := by
  cases target with
  | addr addr => exact h addr
  | label _ => exact h

/-- Operands that fit a format give an instruction of its row (R323, R325). -/
theorem fits_of_parseOperands {sh : Shape} {c : Code} {ts : List Text} {i : AsmInstr} (hl : sh.Lawful c)
    (h : parseOperands sh ts = some i) : i.Fits c := by
  unfold parseOperands at h
  split at h
  next j =>
    obtain ⟨hcode, hwf, _⟩ := hl
    obtain rfl := Option.some.inj h
    exact ⟨hwf, hcode⟩
  next w mk t =>
    obtain ⟨r, hr, rfl⟩ := Option.map_eq_some_iff.1 h
    obtain ⟨hcode, hwf, _⟩ := hl r
    exact ⟨hwf.trans (viewOk_of_parseReg hr), hcode⟩
  next w mk t u =>
    split at h
    next d s hd hs =>
      obtain ⟨hcode, hwf, _⟩ := hl d s
      obtain rfl := Option.some.inj h
      exact ⟨by rw [hwf, viewOk_of_parseReg hd, viewOk_of_parseReg hs]; rfl, hcode⟩
    next => cases h
  next w mk t u =>
    split at h
    next d imm hd _ =>
      obtain ⟨hcode, hwf, _⟩ := hl d imm
      obtain rfl := Option.some.inj h
      exact ⟨hwf.trans (viewOk_of_parseReg hd), hcode⟩
    next => cases h
  next w mk t u =>
    split at h
    next d target hd _ =>
      obtain rfl := Option.some.inj h
      refine fits_withTarget (fun addr => ?_) target
      obtain ⟨hcode, hwf, _⟩ := hl d addr
      exact ⟨hwf.trans (viewOk_of_parseReg hd), hcode⟩
    next => cases h
  next mk t =>
    obtain ⟨target, _, rfl⟩ := Option.map_eq_some_iff.1 h
    refine fits_withTarget (fun addr => ?_) target
    obtain ⟨hcode, hwf, _⟩ := hl addr
    exact ⟨hwf, hcode⟩
  next => cases h

/-- An instruction line holds an instruction of the row its mnemonic names (R322 to R326). -/
theorem fits_of_parseItem {line : Text} {row : OpRow} {i : AsmInstr} (h : parseItem line = some (.instr row i)) :
    i.Fits row.code := by
  unfold parseItem at h
  split at h
  next => dsimp only at h; split at h <;> cases h
  next =>
    split at h
    next => cases h
    next =>
      split at h
      next => cases h
      next found hrow =>
        obtain ⟨j, hj, heq⟩ := Option.map_eq_some_iff.1 h
        obtain ⟨rfl, rfl⟩ := Item.instr.inj heq
        exact fits_of_parseOperands (lawful_of_mem _ (List.mem_of_find?_eq_some hrow)) hj

theorem resolve_of_find {labels : Labels} {name : Text} {addr : U24} (mk : U24 → Instr)
    (h : labels.find name = some addr) : AsmInstr.resolve labels (.awaiting name mk) = .ok (mk addr) := by
  simp [AsmInstr.resolve, h]

theorem resolve_of_find_none {labels : Labels} {name : Text} (mk : U24 → Instr) (h : labels.find name = none) :
    AsmInstr.resolve labels (.awaiting name mk) = .error (.unknownLabel name) := by
  simp [AsmInstr.resolve, h]

/-- Resolving keeps the operation and the register check (R330). -/
theorem AsmInstr.Fits.resolve {labels : Labels} {c : Code} {i : AsmInstr} {instr : Instr} (hf : i.Fits c)
    (h : i.resolve labels = .ok instr) : instr.wf = true ∧ instr.code = c := by
  cases i with
  | resolved j => exact Except.ok.inj h ▸ hf
  | awaiting name mk =>
    cases hfind : labels.find name with
    | none => simp [resolve_of_find_none mk hfind] at h
    | some addr =>
      rw [resolve_of_find mk hfind] at h
      exact Except.ok.inj h ▸ hf addr

/-! ## The label map -/

/-- A name that is bound keeps its address when another label is added at the end. -/
theorem find_append_of_find {labels : Labels} {name : Text} {addr : U24} (h : labels.find name = some addr)
    (more : Labels) : Labels.find (labels ++ more) name = some addr := by
  rw [Labels.find] at h ⊢
  rw [List.lookup_append, h, Option.some_or]

theorem find_append_singleton {labels : Labels} {name : Text} (h : labels.find name = none) (other : Text)
    (addr : U24) : Labels.find (labels ++ [(other, addr)]) name = if name = other then some addr else none := by
  rw [Labels.find] at h ⊢
  rw [List.lookup_append, h, Option.none_or]
  by_cases heq : name = other
  · simp [heq]
  · simp [List.lookup_cons, beq_false_of_ne heq, heq]

/-! ## One line of each pass -/

/-- What pass 1 does with a line: from an offset and a label map to the next ones (R329, R332). -/
inductive CountsLine (lenient : Bool) (line : Text) (offset : Nat) (labels : Labels) : Nat → Labels → Prop
  | skipped (h : parseItem line = none) (hl : lenient = true) : CountsLine lenient line offset labels offset labels
  | label (name : Text) (h : parseItem line = some (.label name)) (hnew : labels.find name = none) :
      CountsLine lenient line offset labels offset (labels ++ [(name, u24 offset)])
  | instr (row : OpRow) (i : AsmInstr) (h : parseItem line = some (.instr row i)) :
      CountsLine lenient line offset labels (offset + codeLength row.code) labels

/-- The bytes pass 2 emits for a line (R330, R332). -/
inductive EmitsLine (lenient : Bool) (labels : Labels) (line : Text) : List Byte → Prop
  | skipped (h : parseItem line = none) (hl : lenient = true) : EmitsLine lenient labels line []
  | label (name : Text) (h : parseItem line = some (.label name)) : EmitsLine lenient labels line []
  | instr (row : OpRow) (i : AsmInstr) (instr : Instr) (h : parseItem line = some (.instr row i))
      (hr : i.resolve labels = .ok instr) : EmitsLine lenient labels line (encode instr)

section
variable {lenient : Bool} {line : Text} {n : Nat} {rest : List (Text × Nat)}

theorem countsLine_of_pass1_cons {offset size : Nat} {labels final : Labels}
    (h : pass1 lenient ((line, n) :: rest) offset labels = .ok (final, size)) :
    ∃ offset' labels', CountsLine lenient line offset labels offset' labels' ∧
      pass1 lenient rest offset' labels' = .ok (final, size) := by
  unfold pass1 at h
  split at h
  next hitem =>
    split at h
    next hl => exact ⟨_, _, .skipped hitem hl, h⟩
    next => cases h
  next name hitem =>
    split at h
    next => cases h
    next hnew => exact ⟨_, _, .label name hitem (by simpa using hnew), h⟩
  next row i hitem => exact ⟨_, _, .instr row i hitem, h⟩

theorem emitsLine_of_pass2_cons {labels : Labels} {bytes : List Byte}
    (h : pass2 lenient labels ((line, n) :: rest) = .ok bytes) :
    ∃ mid tail, EmitsLine lenient labels line mid ∧ pass2 lenient labels rest = .ok tail ∧ bytes = mid ++ tail := by
  unfold pass2 at h
  split at h
  next hitem =>
    split at h
    next hl => exact ⟨_, _, .skipped hitem hl, h, rfl⟩
    next => cases h
  next name hitem => exact ⟨_, _, .label name hitem, h, rfl⟩
  next row i hitem =>
    split at h
    next => cases h
    next instr hr =>
      split at h
      next => cases h
      next tail htail => exact ⟨_, _, .instr row i instr hitem hr, htail, (Except.ok.inj h).symm⟩

theorem pass2_cons_of_emitsLine {labels : Labels} {mid tail : List Byte} (hm : EmitsLine lenient labels line mid)
    (ht : pass2 lenient labels rest = .ok tail) : pass2 lenient labels ((line, n) :: rest) = .ok (mid ++ tail) := by
  cases hm with
  | skipped h hl => simp [pass2, h, hl, ← ht]
  | label name h => simp [pass2, h, ht]
  | instr row i instr h hr => simp [pass2, h, hr, ht]

theorem EmitsLine.of_label {labels : Labels} {mid : List Byte} {name : Text} (he : EmitsLine lenient labels line mid)
    (h : parseItem line = some (.label name)) : mid = [] := by
  cases he with
  | skipped | label => rfl
  | instr _ _ _ h' => simp [h] at h'

theorem EmitsLine.of_instr {labels : Labels} {mid : List Byte} {row : OpRow} {i : AsmInstr}
    (he : EmitsLine lenient labels line mid) (h : parseItem line = some (.instr row i)) :
    ∃ instr, i.resolve labels = .ok instr ∧ mid = encode instr := by
  cases he with
  | skipped h' | label _ h' => simp [h] at h'
  | instr _ _ instr h' hr =>
    obtain ⟨_, rfl⟩ := Item.instr.inj (Option.some.inj (h'.symm.trans h))
    exact ⟨instr, hr, rfl⟩

theorem EmitsLine.of_skipped {labels : Labels} {mid : List Byte} (he : EmitsLine lenient labels line mid)
    (h : parseItem line = none) : lenient = true ∧ mid = [] := by
  cases he with
  | skipped _ hl => exact ⟨hl, rfl⟩
  | label _ h' | instr _ _ _ h' => simp [h] at h'

/-- The two passes agree on the length of a line. -/
theorem CountsLine.offset_eq {offset offset' : Nat} {labels labels' final : Labels} {mid : List Byte}
    (hc : CountsLine lenient line offset labels offset' labels') (he : EmitsLine lenient final line mid) :
    offset' = offset + mid.length := by
  cases hc with
  | skipped h hl => simp [(he.of_skipped h).2]
  | label name h => simp [he.of_label h]
  | instr row i h =>
    obtain ⟨instr, hr, rfl⟩ := he.of_instr h
    obtain ⟨_, hcode⟩ := (fits_of_parseItem h).resolve hr
    rw [length_encode, hcode]

/-- A binding made before a line is kept by it. -/
theorem CountsLine.find_eq_some {offset offset' : Nat} {labels labels' : Labels} {name : Text} {addr : U24}
    (hc : CountsLine lenient line offset labels offset' labels') (h : labels.find name = some addr) :
    labels'.find name = some addr := by
  cases hc with
  | skipped | instr => exact h
  | label other _ hnew => exact find_append_of_find h _

/-- A line that does not define a name does not bind it. -/
theorem CountsLine.find_eq_none {offset offset' : Nat} {labels labels' : Labels} {name : Text}
    (hc : CountsLine lenient line offset labels offset' labels') (h : labels.find name = none)
    (hne : parseItem line ≠ some (.label name)) : labels'.find name = none := by
  cases hc with
  | skipped | instr => exact h
  | label other hitem hnew =>
    have hother : name ≠ other := fun heq => hne (heq ▸ hitem)
    rw [find_append_singleton h, if_neg hother]

end

/-! ## Whole lists of lines -/

section
variable {lenient : Bool} {lines : List (Text × Nat)}

theorem pass1_find_eq_some {offset size : Nat} {labels final : Labels} {name : Text} {addr : U24}
    (h : pass1 lenient lines offset labels = .ok (final, size)) (hfind : labels.find name = some addr) :
    final.find name = some addr := by
  induction lines generalizing offset labels with
  | nil => cases h; exact hfind
  | cons l rest ih =>
    obtain ⟨_, _, hline, hrest⟩ := countsLine_of_pass1_cons h
    exact ih hrest (hline.find_eq_some hfind)

/-- A name that no line defines stays unbound (R329). -/
theorem pass1_find_eq_none {offset size : Nat} {labels final : Labels} {name : Text}
    (h : pass1 lenient lines offset labels = .ok (final, size)) (hfind : labels.find name = none)
    (hne : ∀ l ∈ lines, parseItem l.1 ≠ some (.label name)) : final.find name = none := by
  induction lines generalizing offset labels with
  | nil => cases h; exact hfind
  | cons l rest ih =>
    obtain ⟨_, _, hline, hrest⟩ := countsLine_of_pass1_cons h
    exact ih hrest (hline.find_eq_none hfind (hne l List.mem_cons_self))
      fun m hm => hne m (List.mem_cons_of_mem _ hm)

/-- Past the lines before a cut, pass 1 stands at the number of bytes pass 2 emits for them, whatever label map pass 2
uses. -/
theorem pass1_after_cut {offset size : Nat} {labels final used : Labels} {head : List Byte}
    {after : List (Text × Nat)} (h1 : pass1 lenient (lines ++ after) offset labels = .ok (final, size))
    (h2 : pass2 lenient used lines = .ok head) :
    ∃ labels', pass1 lenient after (offset + head.length) labels' = .ok (final, size) := by
  induction lines generalizing offset labels head with
  | nil => cases h2; exact ⟨labels, h1⟩
  | cons l rest ih =>
    obtain ⟨_, _, hline, hrest⟩ := countsLine_of_pass1_cons h1
    obtain ⟨mid, tail, hmid, htail, rfl⟩ := emitsLine_of_pass2_cons h2
    rw [List.length_append, ← Nat.add_assoc, ← hline.offset_eq hmid]
    exact ih hrest htail

/-- Pass 1 counts the bytes pass 2 emits (R329). -/
theorem pass1_size_eq {offset size : Nat} {labels final used : Labels} {bytes : List Byte}
    (h1 : pass1 lenient lines offset labels = .ok (final, size)) (h2 : pass2 lenient used lines = .ok bytes) :
    size = offset + bytes.length := by
  obtain ⟨_, hend⟩ := pass1_after_cut (after := []) (by rwa [List.append_nil]) h2
  cases hend
  rfl

/-- Pass 2 on the lines before a cut and on the lines from it, with the same label map. -/
theorem pass2_append {labels : Labels} {bytes : List Byte} {after : List (Text × Nat)}
    (h : pass2 lenient labels (lines ++ after) = .ok bytes) :
    ∃ head tail, pass2 lenient labels lines = .ok head ∧ pass2 lenient labels after = .ok tail ∧
      bytes = head ++ tail := by
  induction lines generalizing bytes with
  | nil => exact ⟨[], bytes, rfl, h, rfl⟩
  | cons l rest ih =>
    obtain ⟨mid, tail, hmid, htail, rfl⟩ := emitsLine_of_pass2_cons h
    obtain ⟨head, after', hhead, hafter, rfl⟩ := ih htail
    exact ⟨mid ++ head, after', pass2_cons_of_emitsLine hmid hhead, hafter, (List.append_assoc ..).symm⟩

/-- The bytes of pass 2 are encodings of well-formed instructions (R326, R330). -/
theorem exists_program_of_pass2 {labels : Labels} {bytes : List Byte} (h : pass2 lenient labels lines = .ok bytes) :
    ∃ prog : List Instr, (∀ i ∈ prog, i.wf = true) ∧ bytes = prog.flatMap encode := by
  induction lines generalizing bytes with
  | nil => cases h; exact ⟨[], nofun, rfl⟩
  | cons l rest ih =>
    obtain ⟨mid, tail, hmid, htail, rfl⟩ := emitsLine_of_pass2_cons h
    obtain ⟨prog, hwf, rfl⟩ := ih htail
    cases hmid with
    | skipped | label => exact ⟨prog, hwf, rfl⟩
    | instr row i instr hitem hr =>
      refine ⟨instr :: prog, ?_, rfl⟩
      exact List.forall_mem_cons.2 ⟨((fits_of_parseItem hitem).resolve hr).1, hwf⟩

end

/-- Settles O59: pass 2 emits encodings of well-formed instructions, and `size` of pass 1, which the assembler checks,
is their number of bytes. -/
theorem assemblerEmitsOnlyDecodableCode : Obligations.AssemblerEmitsOnlyDecodableCode := by
  intro lenient src bytes h
  unfold assemble at h
  split at h
  next => cases h
  next labels size h1 =>
    split at h
    next => cases h
    next hsize =>
      obtain ⟨prog, hwf, hbytes⟩ := exists_program_of_pass2 h
      have hlen : size = 0 + bytes.length := pass1_size_eq h1 h
      exact ⟨⟨prog, fun i hi => ⟨hwf i hi, decode_encode_append (hwf i hi)⟩, hbytes⟩, by omega⟩

/-- A label line binds its name, in the map that pass 1 ends with, to the offset it stands at (R329). -/
theorem find_label_of_pass1_cons {lenient : Bool} {line name : Text} {n offset size : Nat}
    {rest : List (Text × Nat)} {labels final : Labels} (hitem : parseItem line = some (.label name))
    (h : pass1 lenient ((line, n) :: rest) offset labels = .ok (final, size)) :
    final.find name = some (u24 offset) := by
  obtain ⟨_, _, hline, hrest⟩ := countsLine_of_pass1_cons h
  cases hline with
  | label other hother hnew =>
    obtain rfl := Item.label.inj (Option.some.inj (hother.symm.trans hitem))
    exact pass1_find_eq_some hrest (by rw [find_append_singleton hnew, if_pos rfl])
  | skipped hitem' | instr _ _ hitem' => simp [hitem] at hitem'

/-- Settles O60: cut both passes before the line; pass 1 then stands at the number of head bytes. -/
theorem assemblerPassesAgreeOnOffsets : Obligations.AssemblerPassesAgreeOnOffsets := by
  refine ⟨fun lenient lines labels size bytes h1 h2 => ⟨?_, ?_, ?_⟩,
    fun labels name mk => ⟨fun _ h => resolve_of_find mk h, resolve_of_find_none mk⟩⟩
  · rw [pass1_size_eq h1 h2, Nat.zero_add]
  · rintro before after line n rfl
    obtain ⟨head, _, hhead, hcut, rfl⟩ := pass2_append h2
    obtain ⟨mid, tail, hmid, htail, rfl⟩ := emitsLine_of_pass2_cons hcut
    obtain ⟨_, hcount⟩ := pass1_after_cut h1 hhead
    rw [Nat.zero_add] at hcount
    refine ⟨head, mid, tail, hhead, htail, (List.append_assoc ..).symm, fun name hitem => ⟨?_, ?_⟩,
      fun row i hitem => ?_, fun hitem => ?_⟩
    · exact hmid.of_label hitem
    · exact find_label_of_pass1_cons hitem hcount
    · exact hmid.of_instr hitem
    · exact hmid.of_skipped hitem
  · exact fun name hne => pass1_find_eq_none h1 rfl hne

end Sys2Proof.Asm
end

section
/-! The run loop and the moves of the engine state (10_state R111, 40_datapath R403, 70_reset R910). -/

namespace Sys2Proof.Machine

/-- A step is enabled exactly in Idle and in Running (10_state R111). -/
theorem State.enabled_iff (s : State) : s.enabled = true ↔ s.engine = .idle ∨ s.engine = .running := by
  unfold State.enabled
  cases s.engine <;> simp

/-- A step always answers a next state: a fault of this hardware is a state too (60_exceptions R808). -/
theorem exists_step_next (s : State) : ∃ t, step s = .next t := by
  rcases step_cases s with ⟨_, h⟩ | ⟨_, i, _, h⟩ | ⟨_, _, _, h⟩
  · exact ⟨_, h⟩
  · obtain ⟨t, ht, _⟩ := exec_next i s.enter
    exact ⟨t, h.trans ht⟩
  · exact ⟨_, h⟩

/-- No step leads back to Idle (10_state R111). -/
theorem engine_ne_idle_of_step {s t : State} (hs : s.engine ≠ .idle) (h : step s = .next t) : t.engine ≠ .idle := by
  cases he : s.enabled with
  | false => rwa [eq_of_step_of_not_enabled he h]
  | true =>
    rcases step_enabled_cases he h with ⟨i, _, heff⟩ | ⟨e, _, rfl⟩
    · rcases heff.icount with ⟨heng, _⟩ | ⟨heng | heng, _⟩ <;> simp [heng, State.enter_engine_of_enabled he]
    · simp

theorem step_of_idle {s : State} (h : s.engine = .idle) : step s = step { s with engine := .running } := by
  simp [step, State.hostStep, State.enabled, State.enter, h]

/-! ## The run loop -/

theorem runSteps_of_not_running {s : State} (h : s.engine ≠ .running) (n : Nat) : runSteps n s = s := by
  cases n with
  | zero => rfl
  | succ n => rw [runSteps, if_neg h]

theorem runSteps_succ_of_running {s t : State} (h : s.engine = .running) (ht : step s = .next t) (n : Nat) :
    runSteps (n + 1) s = runSteps n t := by
  rw [runSteps, if_pos h, show s.hostStep = .next t from ht]

theorem core_run_succ_of_step {M : Host.Core} {s t : M.State} (h : M.step s = .next t) (n : Nat) :
    M.run (n + 1) s = M.run n t := by
  rw [Host.Core.run, h]

/-- Outside Idle the loop answers what the core reaches in as many steps: in Halted and Faulted, where the loop stops, a
step changes nothing (10_state R111). -/
theorem core_run_eq_runSteps {s : State} (hs : s.engine ≠ .idle) (n : Nat) :
    Host.Core.run Sys2Proof.core n s = .next (runSteps n s) := by
  induction n generalizing s with
  | zero => rfl
  | succ n ih =>
    obtain ⟨t, ht⟩ := exists_step_next s
    refine (core_run_succ_of_step (M := Sys2Proof.core) ht n).trans ((ih (engine_ne_idle_of_step hs ht)).trans ?_)
    by_cases hr : s.engine = .running
    · rw [runSteps_succ_of_running hr ht]
    · have he : s.enabled = false := by
        rw [← Bool.not_eq_true, State.enabled_iff]
        exact not_or.2 ⟨hs, hr⟩
      rw [eq_of_step_of_not_enabled he ht, runSteps_of_not_running hr, runSteps_of_not_running hr]

/-- A loop of `m + n` steps is a loop of `m` steps and then one of `n`. -/
theorem runSteps_add (m n : Nat) (s : State) : runSteps (m + n) s = runSteps n (runSteps m s) := by
  induction m generalizing s with
  | zero => rw [Nat.zero_add, runSteps]
  | succ m ih =>
    by_cases hr : s.engine = .running
    · obtain ⟨t, ht⟩ := exists_step_next s
      rw [Nat.succ_add, runSteps_succ_of_running hr ht, runSteps_succ_of_running hr ht, ih]
    · simp only [runSteps_of_not_running hr]

/-! ## `run()` and its outcome -/

theorem State.hostRun_of_idle {s : State} (h : s.engine = .idle) (cap : Nat) :
    s.hostRun cap = (runSteps cap s.enter, (runSteps cap s.enter).outcome) := by
  rw [State.hostRun, if_pos h]

theorem State.hostRun_of_not_idle {s : State} (h : s.engine ≠ .idle) (cap : Nat) : s.hostRun cap = (s, s.outcome) := by
  rw [State.hostRun, if_neg h]

theorem State.enter_of_idle {s : State} (h : s.engine = .idle) : s.enter = { s with engine := .running } := by
  simp [State.enter, h]

theorem State.outcome_of_halted {s : State} (h : s.engine = .halted) : s.outcome = .ok := by
  simp [State.outcome, h]

theorem State.outcome_of_faulted {s : State} {r : FaultRecord} (h : s.engine = .faulted) (hr : s.fault = some r) :
    s.outcome = .fault r := by
  simp [State.outcome, h, hr]

theorem State.outcome_of_running {s : State} (h : s.engine = .running) : s.outcome = .unfinished := by
  simp [State.outcome, h]

/-- Settles O3. -/
theorem engineStateTransitions : Obligations.EngineStateTransitions :=
  ⟨fun _ cap h => State.enter_of_idle h ▸ State.hostRun_of_idle h cap, fun _ => rfl,
    fun _ _ n h ht => runSteps_succ_of_running h ht n, fun _ n h => runSteps_of_not_running h n,
    fun _ n h => core_run_eq_runSteps h n, fun _ cap h => State.hostRun_of_not_idle h cap,
    fun _ => State.outcome_of_halted, fun _ _ => State.outcome_of_faulted, fun _ => State.outcome_of_running,
    fun _ => step_of_idle, fun s _ => ⟨s.halt (Instr.code .hlt), rfl, rfl⟩,
    fun _ _ _ _ => ⟨rfl, State.outcome_of_faulted rfl rfl⟩, fun _ h => (terminal_unchanged h).1⟩

/-- Settles O4: a run with an outcome has left Running, where a longer loop adds nothing. -/
theorem runDoesNotDependOnTheCap : Obligations.RunDoesNotDependOnTheCap := by
  intro s n k h
  by_cases hi : s.engine = .idle
  · rw [State.hostRun_of_idle hi] at h
    have hend : (runSteps n s.enter).engine ≠ .running := fun hr => h (State.outcome_of_running hr)
    rw [State.hostRun_of_idle hi, State.hostRun_of_idle hi, runSteps_add, runSteps_of_not_running hend]
  · rw [State.hostRun_of_not_idle hi, State.hostRun_of_not_idle hi]

end Sys2Proof.Machine
end

section
/-! The step on bytes that decode (40_datapath R400): memory accesses split in two, the fetch of a held instruction. -/

namespace Sys2Proof.Machine

/-- The addresses of an access of `m + n` bytes are those of its first `m` bytes, then those of the rest (R203). -/
theorem accessAddrs_add (a : U24) (m n : Nat) :
    accessAddrs a (m + n) = accessAddrs a m ++ accessAddrs (add24 a (u24 m)) n := by
  simp [accessAddrs_eq, List.range_add, add24_eq, u24, BitVec.ofNat_add, BitVec.add_assoc]

/-- Bytes held at an address, cut in two: both parts are held, the second after the first (R203, R204). -/
theorem holdsAt_append {s : State} {a : U24} {bs cs : List Byte} :
    HoldsAt s a (bs ++ cs) ↔ HoldsAt s a bs ∧ HoldsAt s (add24 a (u24 bs.length)) cs := by
  have hbytes : s.readBytes a (bs ++ cs).length = bs ++ cs ↔
      s.readBytes a bs.length = bs ∧ s.readBytes (add24 a (u24 bs.length)) cs.length = cs := by
    rw [List.length_append, State.readBytes, accessAddrs_add, List.map_append]
    exact ⟨fun h => List.append_inj h (s.length_readBytes a bs.length), fun ⟨hbs, hcs⟩ => congrArg₂ _ hbs hcs⟩
  have hback : s.inMem a (bs ++ cs).length = true ↔
      s.inMem a bs.length = true ∧ s.inMem (add24 a (u24 bs.length)) cs.length = true := by
    rw [List.length_append, State.inMem, accessAddrs_add, List.all_append, Bool.and_eq_true]
    rfl
  rw [HoldsAt, hbytes, hback, HoldsAt, HoldsAt]
  tauto

/-- The opcode word held at `pc` is the one the fetch reads (R400, 30_encoding R300). -/
theorem State.opcodeAt_of_holdsAt {s : State} {c : Code} (h : HoldsAt s s.pc (toBytes 2 c)) : s.opcodeAt = c := by
  obtain ⟨_, hread⟩ := h
  rw [length_toBytes] at hread
  rw [State.opcodeAt, hread]
  exact ofBytes_toBytes 2 c

/-- The fetch answers the instruction that the bytes held at `pc` decode to (R400, 30_encoding R314). -/
theorem State.fetch_of_holdsAt {s : State} {bs rest : List Byte} {i : Instr} (hd : decode bs = .ok (i, rest))
    (h : HoldsAt s s.pc bs) : s.fetch = .ok i := by
  obtain ⟨c, row, ops, rfl, hrow, hlen, hops⟩ := decode_eq_ok_iff_operands.1 hd
  obtain ⟨hheld, _⟩ := holdsAt_append.1 h
  obtain ⟨hword, hback, hread⟩ := holdsAt_append.1 hheld
  obtain rfl := State.opcodeAt_of_holdsAt hword
  obtain ⟨hpc, _⟩ := hword
  rw [length_toBytes] at hpc hback hread
  rw [hlen] at hback hread
  simp [State.fetch, hpc, hrow, State.operandPc, hback, hread, hops]

theorem State.enter_of_enabled {s : State} (h : s.enabled = true) : s.enter = { s with engine := .running } := by
  rcases s.enabled_iff.1 h with hidle | hrunning
  · exact State.enter_of_idle hidle
  · rw [State.enter_of_running hrunning, ← hrunning]

/-- Settles O41. -/
theorem stepRunsTheDecodedInstruction : Obligations.StepRunsTheDecodedInstruction := by
  intro s bs i he hd hbs
  refine ⟨?_, State.enter_of_enabled he⟩
  have hfetch := State.fetch_of_holdsAt hd hbs
  rw [step, State.hostStep, if_pos he, State.cycle, State.enter_fetch, hfetch]

end Sys2Proof.Machine
end

section
/-! The instructions of format RR that write their destination (43_data_move R554). -/

namespace Sys2Proof.Machine

/-- The length of an instruction: its opcode word and its operand bytes (30_encoding R300, R301). -/
theorem codeLength_code (i : Instr) : codeLength i.code = 2 + i.operands.length := by
  rw [codeLength, length_operands]

/-- An RR instruction with both views inside the file writes the result of its function on the old views (R402). -/
theorem writesView_binary {s : State} {c : Code} {w len : Nat} {f : Val w → Val w → Val w × Bool} {d r : Reg}
    (hd : viewOk w d = true) (hr : viewOk w r = true) (hl : codeLength c = len) :
    WritesView (.next (s.binary c w f d r)) s w len d (f (s.reg d w) (s.reg r w)).1.toNat
      ((f (s.reg d w) (s.reg r w)).2 = true) := by
  rcases s.binary_cases c w f d r with ⟨_, _, h⟩ | ⟨hbad, _⟩
  · rw [h]
    exact writesView_of_complete hd hl
  · simp [hd, hr] at hbad

theorem writesView_mov {s : State} {c : Code} {w : Nat} {d r : Reg} (hd : viewOk w d = true) (hr : viewOk w r = true)
    (hl : codeLength c = 3) : WritesView (.next (s.binary c w movew d r)) s w 3 d (s.reg r w).toNat False := by
  simpa [movew] using writesView_binary (f := movew) hd hr hl

/-- Settles O25. -/
theorem movCopiesTheOldSource : Obligations.MovCopiesTheOldSource :=
  ⟨fun _ d r hd hr => writesView_mov hd hr (codeLength_code (.mov1 d r)),
    fun _ d r hd hr => writesView_mov hd hr (codeLength_code (.mov2 d r)),
    fun _ d r hd hr => writesView_mov hd hr (codeLength_code (.mov3 d r))⟩

end Sys2Proof.Machine
end

section
/-! Width-w arithmetic in numbers (40_datapath R410 to R413), for every width: each result modulo `2^(8w)`, with the
condition for CARRY. -/

namespace Sys2Proof.Machine

section
variable {w : Nat} (a b : Val w)

theorem toNat_addw : (addw a b).1.toNat = (a.toNat + b.toNat) % 2 ^ (8 * w) := BitVec.toNat_ofNat ..

theorem addw_carry_iff : (addw a b).2 = true ↔ 2 ^ (8 * w) ≤ a.toNat + b.toNat := decide_eq_true_iff

/-- CARRY of a sum is its bit `8w`, because the sum of two values has at most one more bit than they have (R410). -/
theorem addw_carry_eq_testBit : (addw a b).2 = (a.toNat + b.toNat).testBit (8 * w) := by
  have ha := a.isLt
  have hb := b.isLt
  by_cases h : 2 ^ (8 * w) ≤ a.toNat + b.toNat
  · rw [(addw_carry_iff a b).2 h,
      Nat.testBit_of_two_pow_le_and_two_pow_add_one_gt h (by rw [pow_succ]; omega)]
  · rw [Nat.testBit_lt_two_pow (not_le.1 h)]
    exact decide_eq_false h

theorem toNat_subw_of_le (h : b.toNat ≤ a.toNat) : (subw a b).1.toNat = a.toNat - b.toNat := by
  have ha := a.isLt
  have hdiff : a.toNat + 2 ^ (8 * w) - b.toNat = a.toNat - b.toNat + 2 ^ (8 * w) := by omega
  rw [subw, BitVec.toNat_ofNat, hdiff, Nat.add_mod_right, Nat.mod_eq_of_lt (by omega)]

theorem toNat_subw_of_lt (h : a.toNat < b.toNat) :
    (subw a b).1.toNat = 2 ^ (8 * w) - (b.toNat - a.toNat) := by
  have hb := b.isLt
  rw [subw, BitVec.toNat_ofNat, Nat.mod_eq_of_lt (by omega)]
  omega

theorem subw_borrow_iff : (subw a b).2 = true ↔ a.toNat < b.toNat := decide_eq_true_iff

theorem subw_self : subw a a = (0#(8 * w), false) := by
  refine Prod.ext (BitVec.eq_of_toNat_eq ?_) (decide_eq_false (lt_irrefl _))
  rw [toNat_subw_of_le a a le_rfl, Nat.sub_self, BitVec.toNat_ofNat, Nat.zero_mod]

/-- CARRY of an increment, from that of the sum with 1 (R412). -/
theorem incw_carry_iff (hw : 1 ≤ w) : (incw a).2 = true ↔ a.toNat = 2 ^ (8 * w) - 1 := by
  have ha := a.isLt
  rw [incw, addw_carry_iff, BitVec.toNat_ofNat, Nat.one_mod_two_pow (by omega)]
  omega

theorem toNat_incw_of_carry (hw : 1 ≤ w) (h : (incw a).2 = true) : (incw a).1.toNat = 0 := by
  have ha := a.isLt
  rw [incw, toNat_addw, (incw_carry_iff a hw).1 h, BitVec.toNat_ofNat, Nat.one_mod_two_pow (by omega),
    Nat.sub_add_cancel (by omega), Nat.mod_self]

theorem toNat_decw : (decw a).1.toNat = (a.toNat + (2 ^ (8 * w) - 1)) % 2 ^ (8 * w) := BitVec.toNat_ofNat ..

theorem decw_carry_iff : (decw a).2 = true ↔ a.toNat = 0 := decide_eq_true_iff

theorem toNat_decw_of_carry (h : (decw a).2 = true) : (decw a).1.toNat = 2 ^ (8 * w) - 1 := by
  have ha := a.isLt
  rw [toNat_decw, (decw_carry_iff a).1 h, Nat.zero_add, Nat.mod_eq_of_lt (by omega)]

theorem toNat_andw : (andw a b).1.toNat = a.toNat &&& b.toNat := BitVec.toNat_and ..

theorem toNat_orw : (orw a b).1.toNat = a.toNat ||| b.toNat := BitVec.toNat_or ..

theorem toNat_xorw : (xorw a b).1.toNat = a.toNat ^^^ b.toNat := BitVec.toNat_xor ..

theorem toNat_notw : (notw a).1.toNat = (2 ^ (8 * w) - 1) ^^^ a.toNat := by
  have ha := a.isLt
  rw [notw, BitVec.toNat_xor, BitVec.toNat_ofNat, Nat.mod_eq_of_lt (by omega)]

end

/-- Settles O12. -/
theorem widthArithmeticAndCarry : Obligations.WidthArithmeticAndCarry := by
  intro w hw _ a b
  refine ⟨⟨toNat_addw a b, addw_carry_iff a b, addw_carry_eq_testBit a b⟩, ⟨fun h => ⟨toNat_subw_of_le a b h, ?_⟩,
    fun h => ⟨toNat_subw_of_lt a b h, (subw_borrow_iff a b).2 h⟩, ?_⟩,
    ⟨rfl, incw_carry_iff a hw, toNat_incw_of_carry a hw⟩, ⟨toNat_decw a, decw_carry_iff a, toNat_decw_of_carry a⟩,
    toNat_andw a b, toNat_orw a b, toNat_xorw a b, toNat_notw a, rfl, rfl, rfl, rfl, BitVec.isLt _, BitVec.isLt _,
    BitVec.isLt _, BitVec.isLt _⟩
  · exact decide_eq_false (not_lt.2 h)
  · rintro rfl
    exact Prod.mk.inj (subw_self a)

end Sys2Proof.Machine
end

section
/-! The 24-bit unit in numbers (40_datapath R404 to R409), its parser read as a fold over the digits. -/

namespace Sys2Proof

theorem toNat_u24 (v : Nat) : (u24 v).toNat = v % 2 ^ 24 := BitVec.toNat_ofNat ..

theorem toNat_shl24 (a : U24) (n : Nat) : (shl24 a n).toNat = (a.toNat * 2 ^ n) % 2 ^ 24 := toNat_u24 _

theorem toNat_shr24 (a : U24) (n : Nat) : (shr24 a n).toNat = a.toNat / 2 ^ n := by
  rw [shr24, toNat_u24, Nat.mod_eq_of_lt ((Nat.div_le_self _ _).trans_lt a.isLt)]

/-- A left shift by 24 or more leaves a multiple of `2^24` (R409). -/
theorem shl24_eq_zero (a : U24) {n : Nat} (hn : 24 ≤ n) : shl24 a n = 0#24 :=
  BitVec.eq_of_toNat_eq ((toNat_shl24 a n).trans (Nat.mod_eq_zero_of_dvd ((pow_dvd_pow 2 hn).mul_left _)))

/-- A right shift by 24 or more leaves nothing of a value below `2^24` (R409). -/
theorem shr24_eq_zero (a : U24) {n : Nat} (hn : 24 ≤ n) : shr24 a n = 0#24 :=
  BitVec.eq_of_toNat_eq ((toNat_shr24 a n).trans
    (Nat.div_eq_of_lt (a.isLt.trans_le (Nat.pow_le_pow_right two_pos hn))))

/-! ## The parser -/

/-- The values of the digits as a function: the base is what the parser multiplies by (R408). -/
theorem digitsFrom_eq_foldl {base : Nat} {digit : Char → Option Nat} {value : Char → Nat} {t : List Char}
    (h : ∀ c ∈ t, digit c = some (value c)) (acc : Nat) :
    digitsFrom base digit acc t = some (t.foldl (fun v c => base * v + value c) acc) := by
  induction t generalizing acc with
  | nil => rfl
  | cons c cs ih =>
    obtain ⟨hc, hcs⟩ := List.forall_mem_cons.1 h
    simp only [digitsFrom, hc, ih hcs, List.foldl_cons, Nat.mul_comm acc base]

theorem digitsNat_eq_foldl {base : Nat} {digit : Char → Option Nat} {value : Char → Nat} {t : List Char}
    (ht : t ≠ []) (h : ∀ c ∈ t, digit c = some (value c)) :
    digitsNat base digit t = some (t.foldl (fun v c => base * v + value c) 0) := by
  rw [digitsNat, if_neg (by simpa using ht), digitsFrom_eq_foldl h]

theorem decDigit_eq_some {c : Char} (h : '0' ≤ c ∧ c ≤ '9') : decDigit c = some (c.toNat - '0'.toNat) := if_pos h

/-- Characters are ordered by their code points. -/
theorem char_le_iff_toNat_le {c d : Char} : c ≤ d ↔ c.toNat ≤ d.toNat := UInt32.le_iff_toNat_le

/-- The three ranges of hexadecimal digits do not meet, so the order in which they are tried does not matter. -/
theorem hexDigit_eq_some {c : Char} (h : ('0' ≤ c ∧ c ≤ '9') ∨ ('A' ≤ c ∧ c ≤ 'F') ∨ ('a' ≤ c ∧ c ≤ 'f')) :
    hexDigit c = some (if c ≤ '9' then c.toNat - '0'.toNat else if c ≤ 'F' then c.toNat - 'A'.toNat + 10
      else c.toNat - 'a'.toNat + 10) := by
  simp only [hexDigit, char_le_iff_toNat_le, Char.reduceToNat] at h ⊢
  rcases h with h | h | h
  · rw [if_pos h, if_pos h.2]
  · rw [if_neg (by omega), if_neg (by omega), if_pos h, if_neg (by omega), if_pos h.2]
    congr 1
    omega
  · rw [if_neg (by omega), if_pos h, if_neg (by omega), if_neg (by omega)]
    congr 1
    omega

/-- Text of decimal digits is not of the hexadecimal form, since `x` is no decimal digit (R408). -/
theorem parse24_decimal {t : List Char} (h : ∀ c ∈ t, '0' ≤ c ∧ c ≤ '9') :
    parse24 t = (digitsNat 10 decDigit t).map u24 := by
  unfold parse24
  split
  next hex => exact absurd (h 'x' (by simp)) (by decide)
  next => rfl

theorem parse24_hexadecimal (t : List Char) : parse24 ('0' :: 'x' :: t) = (digitsNat 16 hexDigit t).map u24 := rfl

/-- Settles O14. -/
theorem u24WrapsAndMasks : Obligations.U24WrapsAndMasks := by
  refine ⟨fun v => ⟨toNat_u24 v, ?_, BitVec.isLt _⟩, fun a b => ⟨toNat_u24 _, toNat_u24 _⟩,
    fun a b => ⟨BitVec.toNat_and .., BitVec.toNat_or .., BitVec.toNat_xor .., BitVec.toNat_xor .., rfl⟩,
    fun a b => ⟨decide_eq_true_iff, BitVec.toNat_inj.symm⟩,
    fun a n => ⟨toNat_shl24 a n, toNat_shr24 a n, fun hn => ⟨shl24_eq_zero a hn, shr24_eq_zero a hn⟩⟩, rfl, rfl,
    fun t ht h => ?_, fun t ht h => ?_⟩
  · rw [toNat_u24]
    exact (Nat.and_two_pow_sub_one_eq_mod v 24).symm
  · rw [parse24_decimal h, digitsNat_eq_foldl ht fun c hc => decDigit_eq_some (h c hc), Option.map_some]
  · rw [parse24_hexadecimal, digitsNat_eq_foldl ht fun c hc => hexDigit_eq_some (h c hc), Option.map_some]

end Sys2Proof
end

section
/-! The conditional jumps after a compare (45_jumps R652 to R656, 41_arithmetic R470). -/

namespace Sys2Proof.Machine

/-- A jump taken exactly under `P` goes to its target or past its 5 bytes, and writes no flag (R650). -/
theorem jumpsTo_jumpIf {s : State} {c : Code} {taken : Bool} {a : U24} {P : Prop} [Decidable P]
    (hl : codeLength c = 5) (hP : taken = true ↔ P) :
    JumpsTo (.next (s.jumpIf c taken a)) s (if P then a else s.pc + 5#24) := by
  have hpc : (if taken then a else s.nextPc c) = if P then a else s.pc + 5#24 := by
    simp only [hP, State.nextPc_eq, hl]
  rw [State.jumpIf, hpc]
  exact ⟨_, rfl, fun _ _ => rfl, ⟨rfl, rfl⟩, rfl, fun _ => rfl, retires_complete _ rfl rfl rfl rfl⟩

/-- A difference modulo `2^(8w)` is 0 only for equal operands: with a borrow it is at least 1 (R411, R414). -/
theorem isZero_subw_iff {w : Nat} (a b : Val w) : isZero (subw a b).1 = true ↔ a = b := by
  have hb := b.isLt
  rw [isZero, beq_iff_eq, ← BitVec.toNat_inj, ← BitVec.toNat_inj, BitVec.toNat_ofNat, Nat.zero_mod]
  rcases le_or_gt b.toNat a.toNat with hle | hlt
  · rw [toNat_subw_of_le a b hle]
    omega
  · rw [toNat_subw_of_lt a b hlt]
    omega

/-- The flags a compare leaves: ZERO is equality, CARRY the unsigned order (R470). -/
theorem State.compare_subw_flags {s : State} {c : Code} {w : Nat} {d r : Reg} (hd : viewOk w d = true)
    (hr : viewOk w r = true) :
    ((s.compare c w subw d r).zero = true ↔ s.reg d w = s.reg r w) ∧
      ((s.compare c w subw d r).carry = true ↔ (s.reg d w).toNat < (s.reg r w).toNat) := by
  rcases s.compare_cases c w subw d r with ⟨_, _, h⟩ | ⟨hbad, _⟩
  · rw [h]
    exact ⟨isZero_subw_iff _ _, subw_borrow_iff _ _⟩
  · simp [hd, hr] at hbad

/-- The four conditional jumps, in a state whose flags are those of comparing `x` with `y` (R656). -/
theorem jumps_of_compare_flags {t : State} {w : Nat} {x y : Val w} (a : U24)
    (h : (t.zero = true ↔ x = y) ∧ (t.carry = true ↔ x.toNat < y.toNat)) :
    JumpsTo (exec (.jz a) t) t (if x = y then a else t.pc + 5#24) ∧
      JumpsTo (exec (.jnz a) t) t (if x ≠ y then a else t.pc + 5#24) ∧
      JumpsTo (exec (.jc a) t) t (if x.toNat < y.toNat then a else t.pc + 5#24) ∧
      JumpsTo (exec (.jnc a) t) t (if y.toNat ≤ x.toNat then a else t.pc + 5#24) := by
  obtain ⟨hz, hc⟩ := h
  have hnz : (!t.zero) = true ↔ x ≠ y := by rw [Bool.not_eq_true', ← Bool.not_eq_true, hz]
  have hnc : (!t.carry) = true ↔ y.toNat ≤ x.toNat := by rw [Bool.not_eq_true', ← Bool.not_eq_true, hc, not_lt]
  exact ⟨jumpsTo_jumpIf (codeLength_code (.jz a)) hz, jumpsTo_jumpIf (codeLength_code (.jnz a)) hnz,
    jumpsTo_jumpIf (codeLength_code (.jc a)) hc, jumpsTo_jumpIf (codeLength_code (.jnc a)) hnc⟩

/-- Settles O32: at each width the compare leaves flags under which the four jumps test the order of the views. -/
theorem compareThenJumpTestsUnsignedOrder : Obligations.CompareThenJumpTestsUnsignedOrder :=
  ⟨fun _ _ _ a hd hr => ⟨_, rfl, jumps_of_compare_flags a (State.compare_subw_flags hd hr)⟩,
    fun _ _ _ a hd hr => ⟨_, rfl, jumps_of_compare_flags a (State.compare_subw_flags hd hr)⟩,
    fun _ _ _ a hd hr => ⟨_, rfl, jumps_of_compare_flags a (State.compare_subw_flags hd hr)⟩⟩

end Sys2Proof.Machine
end

section
/-! The stack item a push leaves, and what the matching pop makes of it (46_call_stack R702, R712). -/

namespace Sys2Proof.Machine

/-- The `n`-byte item `x` stands at `sp` on backed memory, and popping it brings `sp` to `sp'` (R702). -/
structure TopItem (v : State) (n : Nat) (x : Val n) (sp' : U24) : Prop where
  backed : v.inMem v.sp n = true
  read : v.memRead v.sp n = x
  popSp : v.popSp n = sp'

/-- What R712 asks of `v`: the parameters of `s`, where the push began, and the `sp` and the item's `n` bytes of `t`,
where it completed. -/
structure ItemKept (s t v : State) (n : Nat) : Prop where
  cfg : v.cfg = s.cfg
  sp : v.sp = t.sp
  bytes : ∀ k, k < n → v.byteAt (t.sp + BitVec.ofNat 24 k) = t.byteAt (t.sp + BitVec.ofNat 24 k)

section
variable {s t v : State} {c : Code} {n : Nat} {x : Val n} {sp' : U24}

/-- The item an instruction leaves on top is still on top in `v`: the instruction wrote no parameter (00_scope R10). -/
theorem TopItem.of_itemKept {i : Instr} (h : TopItem t n x sp') (ht : exec i s = .next t) (hk : ItemKept s t v n) :
    TopItem v n x sp' := by
  obtain ⟨hback, hread, hpop⟩ := h
  have hcfg : v.cfg = t.cfg := hk.cfg.trans (execEffect_of_exec ht).cfg.symm
  have hitem : v.readBytes t.sp n = t.readBytes t.sp n := by
    simpa [State.readBytes, accessAddrs_eq] using hk.bytes
  refine ⟨?_, ?_, ?_⟩
  · rw [State.inMem_iff] at hback ⊢
    rwa [hk.sp, hcfg]
  · rw [hk.sp, State.memRead, hitem]
    exact hread
  · rw [State.popSp, hk.sp]
    exact hpop

/-- A push on backed memory leaves its item on top, with the old `sp` just past the item (R702). -/
theorem topItem_pushThen {npc : U24} (hn : n ≤ 2 ^ 24) (hm : s.inMem (s.sp - BitVec.ofNat 24 n) n = true) :
    TopItem (s.pushThen c n x npc) n x s.sp := by
  have haddr : s.pushAddr n = s.sp - BitVec.ofNat 24 n := sub24_eq ..
  rcases s.pushThen_cases c n x npc with ⟨_, h⟩ | ⟨hbad, _⟩
  · rw [h]
    refine ⟨haddr ▸ hm, State.memRead_memWrite hn, ?_⟩
    rw [State.popSp, add24_eq, State.complete_sp, haddr]
    exact BitVec.sub_add_cancel ..
  · simp [haddr, hm] at hbad

/-- PUSH.w leaves the view on top (R704). -/
theorem topItem_push {r : Reg} (hn : n ≤ 2 ^ 24) (hv : viewOk n r = true)
    (hm : s.inMem (s.sp - BitVec.ofNat 24 n) n = true) : TopItem (s.push c n r) n (s.reg r n) s.sp := by
  rw [State.push, State.checkViews_of_ok (by simp [hv])]
  exact topItem_pushThen hn hm

/-- RTS takes the item on top into `pc` (R701). -/
theorem TopItem.ret {x : Val 3} (h : TopItem v 3 x sp') : (v.ret c).pc = x ∧ (v.ret c).sp = sp' := by
  rcases v.ret_cases c with ⟨_, hret⟩ | ⟨hbad, _⟩
  · rw [hret]
    exact ⟨h.read, h.popSp⟩
  · simp [h.backed] at hbad

/-- POP.w takes the item on top into the view (R708). -/
theorem TopItem.pop {r : Reg} (h : TopItem v n x sp') (hv : viewOk n r = true) :
    (v.pop c n r).reg r n = x ∧ (v.pop c n r).sp = sp' := by
  rcases v.pop_cases c n r with ⟨_, _, hpop⟩ | ⟨_, hbad, _⟩ | ⟨hbad, _⟩
  · rw [hpop]
    exact ⟨(State.reg_setReg hv).trans h.read, h.popSp⟩
  · simp [h.backed] at hbad
  · simp [hv] at hbad

theorem rts_undoes_jsr {a : U24} (hm : s.inMem (s.sp - 3#24) 3 = true) (ht : exec (.jsr a) s = .next t)
    (hk : ItemKept s t v 3) :
    ∃ u, exec .rts v = .next u ∧ u.pc = s.pc + 5#24 ∧ u.sp = s.sp := by
  have hnext : s.nextPc (Instr.jsr a).code = s.pc + 5#24 := by
    rw [State.nextPc_eq, codeLength_code]
    rfl
  obtain rfl : s.pushThen (Instr.jsr a).code 3 (s.nextPc (Instr.jsr a).code) a = t := Host.Outcome.next.inj ht
  have htop := (topItem_pushThen (by norm_num) hm).of_itemKept ht hk
  rw [hnext] at htop
  exact ⟨_, rfl, htop.ret⟩

/-- R712 for PUSH.w and POP.w: `push` and `pop` are the two instructions of width `n` on one view. -/
theorem pop_undoes_push {push pop : Instr} {r : Reg} (hn : n ≤ 2 ^ 24)
    (hpush : exec push s = .next (s.push push.code n r)) (hpop : exec pop v = .next (v.pop pop.code n r))
    (hv : viewOk n r = true) (hm : s.inMem (s.sp - BitVec.ofNat 24 n) n = true) (ht : exec push s = .next t)
    (hk : ItemKept s t v n) :
    ∃ u, exec pop v = .next u ∧ u.reg r n = s.reg r n ∧ u.sp = s.sp := by
  obtain rfl : s.push push.code n r = t := Host.Outcome.next.inj (hpush.symm.trans ht)
  exact ⟨_, hpop, ((topItem_push hn hv hm).of_itemKept ht hk).pop hv⟩

end

/-- Settles O39. -/
theorem callReturnSymmetry : Obligations.CallReturnSymmetry :=
  ⟨fun _ _ _ _ hm ht hcfg hsp hbytes => rts_undoes_jsr hm ht ⟨hcfg, hsp, hbytes⟩,
    fun _ _ _ _ hv hm ht hcfg hsp hbytes => pop_undoes_push (by norm_num) rfl rfl hv hm ht ⟨hcfg, hsp, hbytes⟩,
    fun _ _ _ _ hv hm ht hcfg hsp hbytes => pop_undoes_push (by norm_num) rfl rfl hv hm ht ⟨hcfg, hsp, hbytes⟩,
    fun _ _ _ _ hv hm ht hcfg hsp hbytes => pop_undoes_push (by norm_num) rfl rfl hv hm ht ⟨hcfg, hsp, hbytes⟩⟩

end Sys2Proof.Machine
end

section
/-! Entering Halted: what HLT does, and that nothing else does it (47_halt R750 to R752, 10_state R111, R114). -/

namespace Sys2Proof.Machine

/-- HLT is 2 bytes long (47_halt R750). -/
theorem State.nextPc_hlt (s : State) : s.nextPc (Instr.code .hlt) = s.pc + 2#24 := by
  rw [State.nextPc_eq, codeLength_code]
  rfl

/-- Halting is final: no step changes a state that `State.halt` answers (R111). -/
theorem step_halt (s : State) (c : Code) : step (s.halt c) = .next (s.halt c) :=
  step_of_not_enabled rfl

/-- Settles O38. -/
theorem hltEntersHalted : Obligations.HltEntersHalted := fun s =>
  ⟨s.halt (Instr.code .hlt), rfl, rfl, s.nextPc_hlt, rfl, fun _ _ => rfl, ⟨rfl, rfl⟩, rfl, memKept_of_mem_eq rfl, rfl,
    rfl, step_halt s _⟩

/-- An instruction that takes the engine to Halted is HLT (R751). -/
theorem ExecEffect.eq_hlt {i : Instr} {s t : State} (h : ExecEffect i s t) (hs : s.engine ≠ .halted)
    (ht : t.engine = .halted) : i = .hlt := by
  cases h with
  | registerFault | accessFault => cases ht
  | computes | stores | jumps | pushes | pops => exact absurd ht hs
  | halts hi => exact hi

/-- What the fetch answers stands at `pc`: its opcode word is backed and is the code of the instruction (40_datapath
R400, 30_encoding R303). -/
theorem State.opcodeAt_of_fetch {s : State} {i : Instr} (h : s.fetch = .ok i) :
    s.inMem s.pc 2 = true ∧ s.opcodeAt = i.code := by
  rcases s.fetch_cases with ⟨_, hf⟩ | ⟨_, _, hf⟩ | ⟨row, hpc, hrow, ⟨_, hf⟩ | ⟨_, ⟨_, _, hf⟩ | ⟨j, hj, hf⟩⟩⟩ <;>
    rw [hf] at h <;> cases h
  obtain ⟨hmem, hcode⟩ := lookup_eq_some_iff.1 hrow
  have hl := lawful_of_mem row hmem
  obtain ⟨hmakes, _, _⟩ := makes_of_decodeOperands hl hj
  exact ⟨hpc, hcode.symm.trans (hl.code_of_makes hmakes).symm⟩

/-- Settles O47: a fault of the fetch enters Faulted, and of the fetched instructions only HLT enters Halted. -/
theorem onlyHltHalts : Obligations.OnlyHltHalts := by
  intro s t hs hstep ht
  rcases step_enabled_cases hs hstep with ⟨i, hfetch, heff⟩ | ⟨e, _, rfl⟩
  · have henter : s.enter.engine ≠ .halted := by simp [State.enter_engine_of_enabled hs]
    obtain rfl := heff.eq_hlt henter ht
    exact State.opcodeAt_of_fetch hfetch
  · cases ht

end Sys2Proof.Machine
end

section
/-! Unbacked accesses of the execute phase: the Data and Stack faults of 60_exceptions R803 and R807. -/

namespace Sys2Proof.Machine

section
variable {s t : State} {c : Code} {w : Nat} {r : Reg} {a npc : U24} {v : Val w} {reason : FaultReason}

theorem State.load_of_unbacked (hv : viewOk w r = true) (hm : s.inMem a w = false) :
    s.load c w r a = s.raise .data (some c) (s.firstBad a w) :=
  (State.checkViews_of_ok (by simp [hv])).trans (State.checkAccess_of_bad hm)

theorem State.store_of_unbacked (hv : viewOk w r = true) (hm : s.inMem a w = false) :
    s.store c w r a = s.raise .data (some c) (s.firstBad a w) :=
  (State.checkViews_of_ok (by simp [hv])).trans (State.checkAccess_of_bad hm)

theorem State.pop_of_unbacked (hv : viewOk w r = true) (hm : s.inMem s.sp w = false) :
    s.pop c w r = s.raise .stack (some c) (s.firstBad s.sp w) :=
  (State.checkViews_of_ok (by simp [hv])).trans (State.checkAccess_of_bad hm)

theorem State.ret_of_unbacked (hm : s.inMem s.sp 3 = false) :
    s.ret c = s.raise .stack (some c) (s.firstBad s.sp 3) :=
  State.checkAccess_of_bad hm

/-- A push looks at the bytes just below `sp` (46_call_stack R702). -/
theorem State.pushThen_of_unbacked (hm : s.inMem (s.sp - BitVec.ofNat 24 w) w = false) :
    s.pushThen c w v npc = s.raise .stack (some c) (s.firstBad (s.sp - BitVec.ofNat 24 w) w) := by
  have haddr : s.pushAddr w = s.sp - BitVec.ofNat 24 w := sub24_eq ..
  rw [State.pushThen, haddr]
  exact State.checkAccess_of_bad hm

theorem State.push_of_unbacked (hv : viewOk w r = true) (hm : s.inMem (s.sp - BitVec.ofNat 24 w) w = false) :
    s.push c w r = s.raise .stack (some c) (s.firstBad (s.sp - BitVec.ofNat 24 w) w) :=
  (State.checkViews_of_ok (by simp [hv])).trans (State.pushThen_of_unbacked hm)

/-- The fault of an unbacked access always has its first bad address (R807, 20_memory R204). -/
theorem answersFault_of_unbacked (ht : t = s.raise reason (some c) (s.firstBad a w)) (hm : s.inMem a w = false) :
    AnswersFault (.next t) s reason.kind reason (some c) (s.firstBad a w) ∧ (s.firstBad a w).isSome = true :=
  ⟨⟨t, rfl, ht ▸ takesFault_raise s reason (some c) (s.firstBad a w)⟩, State.firstBad_isSome hm⟩

end

/-- Settles O28: the fault of LOAD.w and of STORE.w, at each width. -/
theorem unbackedDataAccessFaults : Obligations.UnbackedDataAccessFaults :=
  ⟨fun _ _ _ hv hm => answersFault_of_unbacked (State.load_of_unbacked hv hm) hm,
    fun _ _ _ hv hm => answersFault_of_unbacked (State.load_of_unbacked hv hm) hm,
    fun _ _ _ hv hm => answersFault_of_unbacked (State.load_of_unbacked hv hm) hm,
    fun _ _ _ hv hm => answersFault_of_unbacked (State.store_of_unbacked hv hm) hm,
    fun _ _ _ hv hm => answersFault_of_unbacked (State.store_of_unbacked hv hm) hm,
    fun _ _ _ hv hm => answersFault_of_unbacked (State.store_of_unbacked hv hm) hm⟩

/-- Settles O37: the fault of PUSH.w and of POP.w at each width, of JSR and of RTS. -/
theorem unbackedStackAccessFaults : Obligations.UnbackedStackAccessFaults :=
  ⟨fun _ _ hv hm => answersFault_of_unbacked (State.push_of_unbacked hv hm) hm,
    fun _ _ hv hm => answersFault_of_unbacked (State.push_of_unbacked hv hm) hm,
    fun _ _ hv hm => answersFault_of_unbacked (State.push_of_unbacked hv hm) hm,
    fun _ _ hv hm => answersFault_of_unbacked (State.pop_of_unbacked hv hm) hm,
    fun _ _ hv hm => answersFault_of_unbacked (State.pop_of_unbacked hv hm) hm,
    fun _ _ hv hm => answersFault_of_unbacked (State.pop_of_unbacked hv hm) hm,
    fun _ _ hm => answersFault_of_unbacked (State.pushThen_of_unbacked hm) hm,
    fun _ hm => answersFault_of_unbacked (State.ret_of_unbacked hm) hm⟩

end Sys2Proof.Machine
end

section
/-! What every step answers: a next state with the same parameters, and after a fault nothing else written
(60_exceptions R801, R808). -/

namespace Sys2Proof.Machine

section
variable {s t : State}

/-- No step writes a parameter (00_scope R10). -/
theorem cfg_of_step (h : step s = .next t) : t.cfg = s.cfg := by
  cases he : s.enabled with
  | false => rw [eq_of_step_of_not_enabled he h]
  | true =>
    rcases step_enabled_cases he h with ⟨i, _, heff⟩ | ⟨e, _, rfl⟩
    · exact heff.cfg.trans s.enter_cfg
    · exact s.enter_cfg

/-- Entering Running writes only the engine state, which a fault writes again (10_state R111). -/
theorem TakesFault.of_enter {kind : FaultKind} {reason : FaultReason} {code : Option Code} {addr : Option U24}
    (he : s.enabled = true) (h : TakesFault s.enter t kind reason code addr) :
    TakesFault s t kind reason code addr := by
  rw [State.enter_of_enabled he] at h
  exact ⟨h.engine, h.record, h.regs, h.pc, h.sp, h.zero, h.carry, h.icount, h.cfg, h.mem⟩

/-- From a Running engine only the two faults of the execute phase lead to Faulted. -/
theorem ExecEffect.takesFault {i : Instr} (h : ExecEffect i s t) (hs : s.engine = .running)
    (ht : t.engine = .faulted) :
    ∃ reason addr, TakesFault s t reason.kind reason (some i.code) addr := by
  have hne : s.engine ≠ .faulted := by simp [hs]
  cases h with
  | registerFault => exact ⟨.register, none, takesFault_raise ..⟩
  | accessFault reason a n => exact ⟨reason, s.firstBad a n, takesFault_raise ..⟩
  | computes | stores | jumps | pushes | pops => exact absurd ht hne
  | halts => cases ht

end

/-- Settles O46. -/
theorem everyStepAnswersANextState : Obligations.EveryStepAnswersANextState := by
  intro s
  obtain ⟨t, ht⟩ := exists_step_next s
  exact ⟨t, ht, cfg_of_step ht⟩

/-- Settles O44, by the effect of the fetched instruction or the trap of the fetch. -/
theorem faultsArePrecise : Obligations.FaultsArePrecise := by
  intro s t he hstep
  have hrun : s.enter.engine = .running := State.enter_engine_of_enabled he
  rcases step_cases s with ⟨hd, _⟩ | ⟨_, i, hfetch, hexec⟩ | ⟨_, e, _, hraise⟩
  · simp [he] at hd
  · have ht : exec i s.enter = .next t := hexec.symm.trans hstep
    have heff := execEffect_of_exec ht
    refine ⟨fun hf => ?_, fun hf => ⟨i, hfetch, ht, ?_⟩⟩
    · obtain ⟨reason, addr, hfault⟩ := heff.takesFault hrun hf
      exact ⟨reason.kind, reason, some i.code, addr, hfault.of_enter he, rfl, (terminal_unchanged (.inr hf)).1⟩
    · rcases heff.icount with ⟨hf', _⟩ | ⟨_, hcount⟩
      · exact absurd hf' hf
      · simpa using hcount
  · obtain rfl : s.enter.raise e.reason e.code e.addr = t := Host.Outcome.next.inj (hraise.symm.trans hstep)
    refine ⟨fun hf => ?_, fun hf => absurd rfl hf⟩
    exact ⟨e.reason.kind, e.reason, e.code, e.addr, (takesFault_raise ..).of_enter he, rfl,
      (terminal_unchanged (.inr hf)).1⟩

end Sys2Proof.Machine
end

section
/-! The checks of the fetch one by one, each with what it raises (40_datapath R400, 60_exceptions R804 to R806). -/

namespace Sys2Proof

/-- A word is invalid exactly when no row of the map has it (30_encoding R303). -/
theorem lookup_eq_none_iff {c : Code} : lookup c = none ↔ ∀ row ∈ opcodeMap, row.code ≠ c := by
  simp [lookup]

/-- The decoder rejects an invalid word before it looks at any byte after it (R314 step 3). -/
theorem decode_of_unknown {c : Code} (h : lookup c = none) (rest : List Byte) :
    decode (toBytes 2 c ++ rest) = .error (.invalidOpCode c) := by
  have hword : BitVec.ofNat 16 (leNat (toBytes 2 c)) = c := ofBytes_toBytes 2 c
  obtain ⟨lo, hi, hbytes⟩ := List.length_eq_two.1 (length_toBytes 2 c)
  rw [hbytes] at hword ⊢
  simp [decode, hword, h]

section
variable {sh : Shape} {w : Nat} {b : Byte} {bs : List Byte}

theorem decodeOneReg_of_highNibble {mk : Reg → Instr} (h : highNibble b ≠ 0#4) :
    decodeOneReg w b mk = .error .packing := if_pos h

theorem decodeOneReg_of_badView {mk : Reg → Instr} (h : highNibble b = 0#4) (hv : viewOk w (lowNibble b) = false) :
    decodeOneReg w b mk = .error .register := by
  simp [decodeOneReg, h, hv]

/-- `sh` is one of the single-register formats R, RI and RA, of operand width `w` (30_encoding R305, R307, R309). -/
abbrev Shape.OneReg (w : Nat) (sh : Shape) : Prop :=
  (∃ mk, sh = .r w mk) ∨ (∃ mk, sh = .ri w mk) ∨ (∃ mk, sh = .ra w mk)

theorem Shape.OneReg.operandBytes_pos (h : sh.OneReg w) : 0 < sh.operandBytes := by
  rcases h with ⟨mk, rfl⟩ | ⟨mk, rfl⟩ | ⟨mk, rfl⟩ <;> simp [Shape.operandBytes]

/-- The single-register formats share the checks of their register byte (60_exceptions R806). -/
theorem decodeOperands_of_oneReg (h : sh.OneReg w) (hlen : (b :: bs).length = sh.operandBytes) :
    ∃ mk, decodeOperands sh (b :: bs) = decodeOneReg w b mk := by
  rcases h with ⟨mk, rfl⟩ | ⟨mk, rfl⟩ | ⟨mk, rfl⟩
  · obtain rfl : bs = [] := List.length_eq_zero_iff.1 (Nat.succ.inj hlen)
    exact ⟨mk, rfl⟩
  · have hbs : bs.length = w := by
      rw [List.length_cons, Shape.operandBytes] at hlen
      omega
    exact ⟨_, if_pos hbs⟩
  · exact ⟨_, if_pos (Nat.succ.inj hlen)⟩

/-- In format RR either field may fail the register check (R308). -/
theorem decodeOperands_rr_of_badView {mk : Reg → Reg → Instr}
    (h : viewOk w (lowNibble b) = false ∨ viewOk w (highNibble b) = false) :
    decodeOperands (.rr w mk) [b] = .error .register := by
  rcases h with h | h <;> simp [decodeOperands, h]

end

end Sys2Proof

namespace Sys2Proof.Machine

/-! ## The bytes the fetch reads -/

theorem State.operandPc_eq (s : State) : s.operandPc = s.pc + 2#24 := add24_eq ..

/-- The first byte of a read is the one at its address (20_memory R203). -/
theorem State.readBytes_succ (s : State) (a : U24) (n : Nat) :
    s.readBytes a (n + 1) = s.byteAt a :: s.readBytes (a + 1#24) n := by
  rw [State.readBytes, Nat.add_comm n 1, accessAddrs_add, List.map_append, add24_eq]
  simp [accessAddrs_eq, State.readBytes, u24]

/-- The opcode word as a number, low byte first (30_encoding R300). -/
theorem State.toNat_opcodeAt (s : State) :
    s.opcodeAt.toNat = (s.byteAt s.pc).toNat + 256 * (s.byteAt (s.pc + 1#24)).toNat := by
  have hbytes : s.readBytes s.pc 2 = [s.byteAt s.pc, s.byteAt (s.pc + 1#24)] := by
    rw [State.readBytes_succ, State.readBytes_succ]
    rfl
  have hword : s.opcodeAt.toNat = leNat (s.readBytes s.pc 2) := toNat_ofBytes (s.length_readBytes s.pc 2)
  rw [hword, hbytes]
  simp [leNat]

/-! ## One equation of the fetch per check -/

section
variable {s : State} {row : OpRow}

theorem State.fetch_of_unbackedWord (hm : s.inMem s.pc 2 = false) :
    s.fetch = .error ⟨.fetch, none, s.firstBad s.pc 2⟩ := by
  simp [State.fetch, hm]

theorem State.fetch_of_unknown (hm : s.inMem s.pc 2 = true) (hrow : lookup s.opcodeAt = none) :
    s.fetch = .error ⟨.unknown, some s.opcodeAt, none⟩ := by
  simp [State.fetch, hm, hrow]

theorem State.fetch_of_unbackedOperands (hm : s.inMem s.pc 2 = true) (hrow : lookup s.opcodeAt = some row)
    (hops : s.inMem s.operandPc (operandCount s.opcodeAt) = false) :
    s.fetch = .error ⟨.truncated, some s.opcodeAt, s.firstBad s.operandPc (operandCount s.opcodeAt)⟩ := by
  simp [State.fetch, hm, hrow, hops]

theorem State.fetch_of_operandError {e : OperandError} (hm : s.inMem s.pc 2 = true)
    (hrow : lookup s.opcodeAt = some row) (hops : s.inMem s.operandPc (operandCount s.opcodeAt) = true)
    (he : decodeOperands row.shape (s.readBytes s.operandPc (operandCount s.opcodeAt)) = .error e) :
    s.fetch = .error ⟨operandReason e, some s.opcodeAt, none⟩ := by
  simp [State.fetch, hm, hrow, hops, he]

/-- Where the format has an operand byte, the operand bytes begin with the one at `operandPc` (R300, R301). -/
theorem State.exists_readBytes_operands (hrow : lookup s.opcodeAt = some row) (hpos : 0 < row.shape.operandBytes) :
    ∃ bs, s.readBytes s.operandPc (operandCount s.opcodeAt) = s.byteAt s.operandPc :: bs ∧
      (s.byteAt s.operandPc :: bs).length = row.shape.operandBytes := by
  obtain ⟨n, hn⟩ := Nat.exists_eq_add_of_lt hpos
  rw [Nat.zero_add] at hn
  rw [← operandBytes_of_lookup hrow, hn, State.readBytes_succ]
  exact ⟨_, rfl, by simp⟩

/-- The trap of the fetch is the fault the step takes (60_exceptions R808). -/
theorem answersFault_of_fetch {e : Trap} (he : s.enabled = true) (h : s.fetch = .error e) :
    AnswersFault (step s) s e.reason.kind e.reason e.code e.addr := by
  rcases step_cases s with ⟨hd, _⟩ | ⟨_, i, hi, _⟩ | ⟨_, f, hf, hstep⟩
  · simp [he] at hd
  · rw [h] at hi
    cases hi
  · obtain rfl : e = f := Except.error.inj (h.symm.trans hf)
    exact ⟨_, hstep, (takesFault_raise ..).of_enter he⟩

end

/-- Settles O42. -/
theorem unknownCodeRaisesInvalidOpCode : Obligations.UnknownCodeRaisesInvalidOpCode :=
  ⟨fun _ he hm hrows => answersFault_of_fetch he (State.fetch_of_unknown hm (lookup_eq_none_iff.2 hrows)),
    State.toNat_opcodeAt, fun _ rest hrows => decode_of_unknown (lookup_eq_none_iff.2 hrows) rest⟩

/-- Settles O43: each check in turn, the register byte read once for all formats that have one. -/
theorem fetchChecksComeInOrder : Obligations.FetchChecksComeInOrder := by
  intro s he
  refine ⟨fun hm => answersFault_of_fetch he (State.fetch_of_unbackedWord hm), fun hm row hmem hcode => ?_⟩
  have hrow : lookup s.opcodeAt = some row := lookup_eq_some_iff.2 ⟨hmem, hcode⟩
  rw [hcode, ← State.operandPc_eq]
  refine ⟨fun hops => answersFault_of_fetch he (State.fetch_of_unbackedOperands hm hrow hops),
    fun hops => ⟨fun w (hsh : row.shape.OneReg w) => ?_, fun w mk hsh hbad => ?_⟩⟩
  · obtain ⟨bs, hread, hlen⟩ := State.exists_readBytes_operands hrow hsh.operandBytes_pos
    obtain ⟨mk, hdecode⟩ := decodeOperands_of_oneReg hsh hlen
    rw [← hread] at hdecode
    refine ⟨fun hhigh => ?_, fun hhigh hview => ?_⟩
    · exact answersFault_of_fetch he
        (State.fetch_of_operandError hm hrow hops (hdecode.trans (decodeOneReg_of_highNibble hhigh)))
    · exact answersFault_of_fetch he
        (State.fetch_of_operandError hm hrow hops (hdecode.trans (decodeOneReg_of_badView hhigh hview)))
  · obtain ⟨bs, hread, hlen⟩ := State.exists_readBytes_operands hrow (by simp [hsh, Shape.operandBytes])
    obtain rfl : bs = [] := by simpa [hsh, Shape.operandBytes] using hlen
    refine answersFault_of_fetch he (State.fetch_of_operandError (e := .register) hm hrow hops ?_)
    rw [hsh, hread]
    exact decodeOperands_rr_of_badView hbad

end Sys2Proof.Machine
end

section
/-! The host's operations keep the invariant (70_reset R900, R903, R910). -/

namespace Sys2Proof.Machine

/-- Bytes written at a backed access keep memory canonical and backed (20_memory R201, 70_reset R903). -/
theorem memOk_writeBytes {s : State} {a : U24} {bs : List Byte} (h : MemOk s) (hm : s.inMem a bs.length = true) :
    MemOk { s with mem := s.mem.writeBytes a bs } := by
  obtain ⟨hwf, hback⟩ := h
  refine ⟨Memory.wf_writeBytes hwf _ _, fun e he => ?_⟩
  rcases Memory.mem_writeBytes he with ⟨k, hk, hek⟩ | hold
  · rw [hek]
    exact (s.inMem_iff a bs.length).1 hm k hk
  · exact hback e hold

/-- Only a load whose every byte is backed is accepted (70_reset R903). -/
theorem State.inMem_of_hostLoad {s t : State} {image : List Byte} {start : U24}
    (h : s.hostLoad image start = some t) : s.inMem start image.length = true := by
  unfold State.hostLoad at h
  split at h
  next hc =>
    obtain ⟨_, _, hm⟩ := hc
    exact hm
  next => cases h

/-- Reset keeps memory and the parameters, and its other values are those of creation (70_reset R900). -/
theorem inv_hostReset {s : State} (hs : Inv s) : Inv s.hostReset := by
  obtain ⟨hwf, hback, _, _⟩ := hs
  have hfault : FaultOk s.hostReset := by
    show s.hostReset.engine ≠ .faulted
    nofun
  exact ⟨hwf, hback, Nat.two_pow_pos _, hfault⟩

/-- An accepted load writes backed bytes only, and nothing but memory (70_reset R903). -/
theorem inv_hostLoad {s t : State} {image : List Byte} {start : U24} (hs : Inv s)
    (h : s.hostLoad image start = some t) : Inv t := by
  have hm := State.inMem_of_hostLoad h
  obtain ⟨_, rfl⟩ := State.hostLoad_eq_some h
  obtain ⟨hwf, hback, hcount, hfault⟩ := hs
  obtain ⟨hwf', hback'⟩ := memOk_writeBytes ⟨hwf, hback⟩ hm
  exact ⟨hwf', hback', hcount, hfault⟩

/-- The run loop keeps what each of its steps keeps (40_datapath R403). -/
theorem inv_runSteps {s : State} (hs : Inv s) (n : Nat) : Inv (runSteps n s) := by
  induction n generalizing s with
  | zero => exact hs
  | succ n ih =>
    by_cases hr : s.engine = .running
    · obtain ⟨t, ht⟩ := exists_step_next s
      rw [runSteps_succ_of_running hr ht]
      exact ih (everyStepKeepsTheInvariant s t hs ht)
    · rwa [runSteps_of_not_running hr]

/-- A run enters Running from Idle and loops; in any other state it changes nothing (10_state R111). -/
theorem inv_hostRun {s : State} (hs : Inv s) (cap : Nat) : Inv (s.hostRun cap).1 := by
  by_cases hi : s.engine = .idle
  · rw [State.hostRun_of_idle hi]
    exact inv_runSteps (inv_enter hs (s.enabled_iff.2 (.inl hi))) cap
  · rwa [State.hostRun_of_not_idle hi]

/-- Settles O53. -/
theorem hostOperationsKeepTheInvariant : Obligations.HostOperationsKeepTheInvariant :=
  fun _ hs => ⟨inv_hostReset hs, fun _ _ _ h => inv_hostLoad hs h, inv_hostRun hs⟩

end Sys2Proof.Machine
end

section
/-! Two requests of the host: loading an image and reading memory (70_reset R903, R910, 20_memory R205). -/

namespace Sys2Proof.Machine

section
variable {s t : State} {image : List Byte} {start : U24}

/-- The three conditions under which a load is accepted (R903, R904). -/
theorem State.hostLoad_isSome_iff : (s.hostLoad image start).isSome = true ↔
    s.engine = .idle ∧ image.length ≤ s.cfg.memSize.1 ∧ s.inMem start image.length = true := by
  unfold State.hostLoad
  split
  next hc => exact iff_of_true rfl hc
  next hc => exact iff_of_false nofun hc

/-- A load changes nothing but memory (R903). -/
theorem State.eq_of_hostLoad (h : s.hostLoad image start = some t) : t = { s with mem := t.mem } := by
  obtain ⟨_, rfl⟩ := State.hostLoad_eq_some h
  rfl

end

/-- Settles O5. -/
theorem loadWritesTheImageInIdleOnly : Obligations.LoadWritesTheImageInIdleOnly := fun _ _ _ =>
  ⟨State.hostLoad_isSome_iff, fun _ h =>
    ⟨fun _ hk => State.byteAt_hostLoad_inside h hk, fun _ ha => State.byteAt_hostLoad_outside h ha,
      State.eq_of_hostLoad h⟩⟩

/-- The bytes of an access, each at its address as a sum (20_memory R203). -/
theorem State.readBytes_eq (s : State) (a : U24) (n : Nat) :
    s.readBytes a n = (List.range n).map (fun k => s.byteAt (a + BitVec.ofNat 24 k)) := by
  rw [State.readBytes, accessAddrs_eq, List.map_map]
  rfl

/-- `MemRead(a, n)` as the sum of R205. -/
theorem State.toNat_memRead (s : State) (a : U24) (n : Nat) :
    (s.memRead a n).toNat = ∑ k ∈ Finset.range n, (s.byteAt (a + BitVec.ofNat 24 k)).toNat * 2 ^ (8 * k) := by
  rw [State.memRead, toNat_ofBytes (s.length_readBytes a n), State.readBytes_eq, leNat_map_range]

/-- Settles O7. -/
theorem readMemReturnsBackedBytesOnly : Obligations.ReadMemReturnsBackedBytesOnly := fun s a n =>
  ⟨fun hm => ⟨s.memRead a n, if_pos hm, s.toNat_memRead a n⟩, fun hm => if_neg (by simp [hm])⟩

end Sys2Proof.Machine
end

section
/-! The register forms: each operation writes the value and CARRY of its width-w function on the old views
(40_datapath R402, R410 to R414, 41_arithmetic, 42_bitwise, 43_data_move). -/

namespace Sys2Proof.Machine

/-! ## The width-w functions -/

section
variable {w : Nat} (a b : Val w)

theorem toNat_subw : (subw a b).1.toNat = (a.toNat + 2 ^ (8 * w) - b.toNat) % 2 ^ (8 * w) := BitVec.toNat_ofNat ..

theorem toNat_incw : (incw a).1.toNat = (a.toNat + 1) % 2 ^ (8 * w) := by
  rw [incw, toNat_addw, BitVec.toNat_ofNat, Nat.add_mod_mod]

end

/-- The all-ones value of width 3 is the mask of R406. -/
theorem allOnes_width_three : BitVec.ofNat (8 * 3) (2 ^ (8 * 3) - 1) = 0xFFFFFF#24 := rfl

/-- Settles O13: at width 3 both units build each result by the same expression, the complement up to its mask. -/
theorem widthThreeAgreesWithU24 : Obligations.WidthThreeAgreesWithU24 := fun a _ =>
  ⟨rfl, rfl, rfl, rfl, rfl, congrArg (· ^^^ a) allOnes_width_three⟩

/-! ## One lemma per operand form -/

section
variable {o : Result} {s : State} {c : Code} {w len : Nat} {d r : Reg} {imm : Val w}

/-- The value and CARRY of `WritesView` in other words. -/
theorem WritesView.restate {v value : Nat} {cy : Bool} {carry : Prop} (h : WritesView o s w len d v (cy = true))
    (hv : v = value) (hc : cy = true ↔ carry) : WritesView o s w len d value carry := by
  rwa [← hv, ← propext hc]

/-- The value and CARRY of `WritesFlagsOnly` in other words. -/
theorem WritesFlagsOnly.restate {v value : Nat} {cy : Bool} {carry : Prop} (h : WritesFlagsOnly o s v (cy = true))
    (hv : v = value) (hc : cy = true ↔ carry) : WritesFlagsOnly o s value carry := by
  rwa [← hv, ← propext hc]

/-- CMP and TST with both views inside the file (R470, R516). -/
theorem writesFlagsOnly_compare {f : Val w → Val w → Val w × Bool} (hd : viewOk w d = true) (hr : viewOk w r = true)
    (hl : codeLength c = 3) :
    WritesFlagsOnly (.next (s.compare c w f d r)) s (f (s.reg d w) (s.reg r w)).1.toNat
      ((f (s.reg d w) (s.reg r w)).2 = true) := by
  rcases s.compare_cases c w f d r with ⟨_, _, h⟩ | ⟨hbad, _⟩
  · rw [h]
    exact writesFlagsOnly_of_complete hl
  · simp [hd, hr] at hbad

/-- INC, DEC and NOT with their view inside the file (R458, R462, R512). -/
theorem writesView_unary {f : Val w → Val w × Bool} (hr : viewOk w r = true) (hl : codeLength c = len) :
    WritesView (.next (s.unary c w f r)) s w len r (f (s.reg r w)).1.toNat ((f (s.reg r w)).2 = true) := by
  rcases s.unary_cases c w f r with ⟨_, h⟩ | ⟨hbad, _⟩
  · rw [h]
    exact writesView_of_complete hr hl
  · simp [hr] at hbad

/-- ADDI and LOADI with their view inside the file (R466, R550). -/
theorem writesView_immediate {f : Val w → Val w → Val w × Bool} (hd : viewOk w d = true) (hl : codeLength c = len) :
    WritesView (.next (s.immediate c w f d imm)) s w len d (f (s.reg d w) imm).1.toNat
      ((f (s.reg d w) imm).2 = true) := by
  rcases s.immediate_cases c w f d imm with ⟨_, h⟩ | ⟨hbad, _⟩
  · rw [h]
    exact writesView_of_complete hd hl
  · simp [hd] at hbad

/-! ## Each operation at every width -/

theorem writesView_add (hd : viewOk w d = true) (hr : viewOk w r = true) (hl : codeLength c = len) :
    WritesView (.next (s.binary c w addw d r)) s w len d (((s.reg d w).toNat + (s.reg r w).toNat) % 2 ^ (8 * w))
      (2 ^ (8 * w) ≤ (s.reg d w).toNat + (s.reg r w).toNat) :=
  (writesView_binary hd hr hl).restate (toNat_addw _ _) (addw_carry_iff _ _)

theorem writesView_sub (hd : viewOk w d = true) (hr : viewOk w r = true) (hl : codeLength c = len) :
    WritesView (.next (s.binary c w subw d r)) s w len d
      (((s.reg d w).toNat + 2 ^ (8 * w) - (s.reg r w).toNat) % 2 ^ (8 * w))
      ((s.reg d w).toNat < (s.reg r w).toNat) :=
  (writesView_binary hd hr hl).restate (toNat_subw _ _) (subw_borrow_iff _ _)

theorem writesView_inc (hw : 1 ≤ w) (hr : viewOk w r = true) (hl : codeLength c = len) :
    WritesView (.next (s.unary c w incw r)) s w len r (((s.reg r w).toNat + 1) % 2 ^ (8 * w))
      ((s.reg r w).toNat = 2 ^ (8 * w) - 1) :=
  (writesView_unary hr hl).restate (toNat_incw _) (incw_carry_iff _ hw)

theorem writesView_dec (hr : viewOk w r = true) (hl : codeLength c = len) :
    WritesView (.next (s.unary c w decw r)) s w len r (((s.reg r w).toNat + (2 ^ (8 * w) - 1)) % 2 ^ (8 * w))
      ((s.reg r w).toNat = 0) :=
  (writesView_unary hr hl).restate (toNat_decw _) (decw_carry_iff _)

theorem writesView_addi (hd : viewOk w d = true) (hl : codeLength c = len) :
    WritesView (.next (s.immediate c w addw d imm)) s w len d (((s.reg d w).toNat + imm.toNat) % 2 ^ (8 * w))
      (2 ^ (8 * w) ≤ (s.reg d w).toNat + imm.toNat) :=
  (writesView_immediate hd hl).restate (toNat_addw _ _) (addw_carry_iff _ _)

theorem writesView_loadi (hd : viewOk w d = true) (hl : codeLength c = len) :
    WritesView (.next (s.immediate c w movew d imm)) s w len d imm.toNat False :=
  (writesView_immediate hd hl).restate rfl Bool.false_eq_true.to_iff

theorem writesFlagsOnly_cmp (hd : viewOk w d = true) (hr : viewOk w r = true) (hl : codeLength c = 3) :
    WritesFlagsOnly (.next (s.compare c w subw d r)) s
      (((s.reg d w).toNat + 2 ^ (8 * w) - (s.reg r w).toNat) % 2 ^ (8 * w)) ((s.reg d w).toNat < (s.reg r w).toNat) :=
  (writesFlagsOnly_compare hd hr hl).restate (toNat_subw _ _) (subw_borrow_iff _ _)

/-- AND, OR and XOR: `op` is the operation on numbers, and CARRY is cleared (R413). -/
theorem writesView_logic {f : Val w → Val w → Val w × Bool} {op : Nat → Nat → Nat}
    (hval : ∀ a b, (f a b).1.toNat = op a.toNat b.toNat) (hcarry : ∀ a b, (f a b).2 = false)
    (hd : viewOk w d = true) (hr : viewOk w r = true) (hl : codeLength c = len) :
    WritesView (.next (s.binary c w f d r)) s w len d (op (s.reg d w).toNat (s.reg r w).toNat) False :=
  (writesView_binary hd hr hl).restate (hval _ _) (by simp [hcarry])

theorem writesView_not (hr : viewOk w r = true) (hl : codeLength c = len) :
    WritesView (.next (s.unary c w notw r)) s w len r ((2 ^ (8 * w) - 1) ^^^ (s.reg r w).toNat) False :=
  (writesView_unary hr hl).restate (toNat_notw _) Bool.false_eq_true.to_iff

theorem writesFlagsOnly_tst (hd : viewOk w d = true) (hr : viewOk w r = true) (hl : codeLength c = 3) :
    WritesFlagsOnly (.next (s.compare c w andw d r)) s ((s.reg d w).toNat &&& (s.reg r w).toNat) False :=
  (writesFlagsOnly_compare hd hr hl).restate (toNat_andw _ _) Bool.false_eq_true.to_iff

end

/-! ## The obligations: each operation at widths 1, 2 and 3, with its length -/

/-- Settles O15. -/
theorem addWritesSumAndCarry : Obligations.AddWritesSumAndCarry :=
  ⟨fun _ d r hd hr => writesView_add hd hr (codeLength_code (.add1 d r)),
    fun _ d r hd hr => writesView_add hd hr (codeLength_code (.add2 d r)),
    fun _ d r hd hr => writesView_add hd hr (codeLength_code (.add3 d r))⟩

/-- Settles O16. -/
theorem subWritesDifferenceAndBorrow : Obligations.SubWritesDifferenceAndBorrow :=
  ⟨fun _ d r hd hr => writesView_sub hd hr (codeLength_code (.sub1 d r)),
    fun _ d r hd hr => writesView_sub hd hr (codeLength_code (.sub2 d r)),
    fun _ d r hd hr => writesView_sub hd hr (codeLength_code (.sub3 d r))⟩

/-- Settles O17. -/
theorem incAddsOneWithCarry : Obligations.IncAddsOneWithCarry :=
  ⟨fun _ r hr => writesView_inc le_rfl hr (codeLength_code (.inc1 r)),
    fun _ r hr => writesView_inc one_le_two hr (codeLength_code (.inc2 r)),
    fun _ r hr => writesView_inc (by norm_num) hr (codeLength_code (.inc3 r))⟩

/-- Settles O18. -/
theorem decSubtractsOneWithBorrow : Obligations.DecSubtractsOneWithBorrow :=
  ⟨fun _ r hr => writesView_dec hr (codeLength_code (.dec1 r)),
    fun _ r hr => writesView_dec hr (codeLength_code (.dec2 r)),
    fun _ r hr => writesView_dec hr (codeLength_code (.dec3 r))⟩

/-- Settles O19. -/
theorem addiAddsTheImmediate : Obligations.AddiAddsTheImmediate :=
  ⟨fun _ d imm hd => writesView_addi hd (codeLength_code (.addi1 d imm)),
    fun _ d imm hd => writesView_addi hd (codeLength_code (.addi2 d imm)),
    fun _ d imm hd => writesView_addi hd (codeLength_code (.addi3 d imm))⟩

/-- Settles O20: the difference modulo `2^(8w)` is 0 exactly for equal views. -/
theorem cmpWritesOnlyTheFlags : Obligations.CmpWritesOnlyTheFlags :=
  ⟨fun _ d r hd hr =>
      ⟨writesFlagsOnly_cmp hd hr (codeLength_code (.cmp1 d r)), _, rfl, (State.compare_subw_flags hd hr).1⟩,
    fun _ d r hd hr =>
      ⟨writesFlagsOnly_cmp hd hr (codeLength_code (.cmp2 d r)), _, rfl, (State.compare_subw_flags hd hr).1⟩,
    fun _ d r hd hr =>
      ⟨writesFlagsOnly_cmp hd hr (codeLength_code (.cmp3 d r)), _, rfl, (State.compare_subw_flags hd hr).1⟩⟩

/-- Settles O21. -/
theorem logicWritesResultAndClearsCarry : Obligations.LogicWritesResultAndClearsCarry :=
  ⟨fun _ d r hd hr => writesView_logic toNat_andw (fun _ _ => rfl) hd hr (codeLength_code (.and1 d r)),
    fun _ d r hd hr => writesView_logic toNat_andw (fun _ _ => rfl) hd hr (codeLength_code (.and2 d r)),
    fun _ d r hd hr => writesView_logic toNat_andw (fun _ _ => rfl) hd hr (codeLength_code (.and3 d r)),
    fun _ d r hd hr => writesView_logic toNat_orw (fun _ _ => rfl) hd hr (codeLength_code (.or1 d r)),
    fun _ d r hd hr => writesView_logic toNat_orw (fun _ _ => rfl) hd hr (codeLength_code (.or2 d r)),
    fun _ d r hd hr => writesView_logic toNat_orw (fun _ _ => rfl) hd hr (codeLength_code (.or3 d r)),
    fun _ d r hd hr => writesView_logic toNat_xorw (fun _ _ => rfl) hd hr (codeLength_code (.xor1 d r)),
    fun _ d r hd hr => writesView_logic toNat_xorw (fun _ _ => rfl) hd hr (codeLength_code (.xor2 d r)),
    fun _ d r hd hr => writesView_logic toNat_xorw (fun _ _ => rfl) hd hr (codeLength_code (.xor3 d r))⟩

/-- Settles O22. -/
theorem notComplementsTheView : Obligations.NotComplementsTheView :=
  ⟨fun _ r hr => writesView_not hr (codeLength_code (.not1 r)),
    fun _ r hr => writesView_not hr (codeLength_code (.not2 r)),
    fun _ r hr => writesView_not hr (codeLength_code (.not3 r))⟩

/-- Settles O23. -/
theorem tstWritesOnlyTheFlags : Obligations.TstWritesOnlyTheFlags :=
  ⟨fun _ d r hd hr => writesFlagsOnly_tst hd hr (codeLength_code (.tst1 d r)),
    fun _ d r hd hr => writesFlagsOnly_tst hd hr (codeLength_code (.tst2 d r)),
    fun _ d r hd hr => writesFlagsOnly_tst hd hr (codeLength_code (.tst3 d r))⟩

/-- Settles O24. -/
theorem loadiWritesTheImmediate : Obligations.LoadiWritesTheImmediate :=
  ⟨fun _ d imm hd => writesView_loadi hd (codeLength_code (.loadi1 d imm)),
    fun _ d imm hd => writesView_loadi hd (codeLength_code (.loadi2 d imm)),
    fun _ d imm hd => writesView_loadi hd (codeLength_code (.loadi3 d imm))⟩

end Sys2Proof.Machine
end

section
/-! LOAD.w and STORE.w at backed addresses, and a narrow load inside a stored view (44_load_store R600 to R607,
20_memory R208). -/

namespace Sys2Proof.Machine

section
variable {s : State} {c c' : Code} {w n m k j : Nat} {d e : Reg} {a b : U24}

/-- `next` of an instruction whose length is known (40_datapath R400). -/
theorem State.nextPc_of_length {len : Nat} (hl : codeLength c = len) : s.nextPc c = s.pc + BitVec.ofNat 24 len := by
  rw [State.nextPc_eq, hl]

/-- The end of an instruction that goes to the next one (40_datapath R400). -/
theorem retires_nextPc {u : State} {len : Nat} (hl : codeLength c = len) (hi : u.icount = s.icount)
    (he : u.engine = s.engine) (hf : u.fault = s.fault) (hc : u.cfg = s.cfg) :
    Retires s (u.complete (s.nextPc c)) (s.pc + BitVec.ofNat 24 len) := by
  rw [← State.nextPc_of_length hl]
  exact retires_complete _ hi he hf hc

theorem State.load_of_backed (hv : viewOk w d = true) (hm : s.inMem a w = true) :
    s.load c w d a = ((s.setReg d w (s.memRead a w)).setFlags (s.memRead a w) false).complete (s.nextPc c) :=
  (State.checkViews_of_ok (by simp [hv])).trans (State.checkAccess_of_ok hm)

theorem State.store_of_backed (hv : viewOk w d = true) (hm : s.inMem a w = true) :
    s.store c w d a = ((s.memWrite a w (s.reg d w)).setFlags (s.reg d w) false).complete (s.nextPc c) :=
  (State.checkViews_of_ok (by simp [hv])).trans (State.checkAccess_of_ok hm)

theorem isZero_iff (v : Val w) : isZero v = true ↔ v.toNat = 0 := by
  rw [isZero, beq_iff_eq, ← BitVec.toNat_inj, BitVec.toNat_ofNat, Nat.zero_mod]

theorem writesView_load (hd : viewOk w d = true) (hm : s.inMem a w = true) (hl : codeLength c = 6) :
    WritesView (.next (s.load c w d a)) s w 6 d (s.memRead a w).toNat False := by
  rw [State.load_of_backed hd hm]
  exact (writesView_of_complete hd hl).restate rfl Bool.false_eq_true.to_iff

theorem storesView_store (hn : w ≤ 2 ^ 24) (hd : viewOk w d = true) (hm : s.inMem a w = true)
    (hl : codeLength c = 6) : StoresView (.next (s.store c w d a)) s w d a := by
  rw [State.store_of_backed hd hm]
  exact ⟨_, rfl, State.memRead_memWrite hn, ⟨isZero_iff _, Bool.false_eq_true.to_iff⟩, fun _ _ => rfl, rfl,
    fun _ hb => State.byteAt_memWrite_outside hb, retires_nextPc hl rfl rfl rfl rfl⟩

/-! ## A load inside a stored view -/

/-- A part of a backed access is backed (20_memory R204). -/
theorem State.inMem_part (hm : s.inMem a n = true) (hk : k + m ≤ n) :
    s.inMem (a + BitVec.ofNat 24 k) m = true := by
  rw [State.inMem_iff] at hm ⊢
  intro j hj
  rw [BitVec.add_assoc, ← BitVec.ofNat_add]
  exact hm (k + j) (by omega)

/-- Byte `k` of a stored view is its cell `k` (10_state R103, 20_memory R206). -/
theorem State.byteAt_memWrite_reg (hn : w ≤ 2 ^ 24) (hk : k < w) :
    (s.memWrite a w (s.reg d w)).byteAt (a + BitVec.ofNat 24 k) = s.cell (d.toNat + k) := by
  have hbytes : toBytes w (s.reg d w) = s.viewBytes d w := toBytes_ofBytes (s.length_viewBytes d w)
  simp only [State.byteAt_memWrite_inside hn hk, hbytes, State.viewBytes, List.getElem_map, List.getElem_range]

/-- Cell `j` of a loaded view is byte `j` of the memory read (10_state R103, 20_memory R205). -/
theorem State.cell_setReg_memRead (he : viewOk m e = true) (hj : j < m) :
    (s.setReg e m (s.memRead b m)).cell (e.toNat + j) = s.byteAt (b + BitVec.ofNat 24 j) := by
  have hbytes : toBytes m (s.memRead b m) = s.readBytes b m := toBytes_ofBytes (s.length_readBytes b m)
  simp only [State.cell_setReg_inside he hj, hbytes, State.readBytes_eq, List.getElem_map, List.getElem_range]

/-- R208: `m` bytes loaded from byte `k` of a stored `w`-byte view are its cells from cell `k` on. -/
theorem State.cell_load_store (hn : w ≤ 2 ^ 24) (hd : viewOk w d = true) (he : viewOk m e = true)
    (hm : s.inMem a w = true) (hk : k + m ≤ w) (hj : j < m) :
    ((s.store c w d a).load c' m e (a + BitVec.ofNat 24 k)).cell (e.toNat + j) = s.cell (d.toNat + k + j) := by
  have hback : (s.store c w d a).inMem (a + BitVec.ofNat 24 k) m = true := by
    rw [State.store_of_backed hd hm]
    exact State.inMem_part hm hk
  calc ((s.store c w d a).load c' m e (a + BitVec.ofNat 24 k)).cell (e.toNat + j)
      = (s.store c w d a).byteAt (a + BitVec.ofNat 24 k + BitVec.ofNat 24 j) := by
        rw [State.load_of_backed he hback]
        exact State.cell_setReg_memRead he hj
    _ = (s.memWrite a w (s.reg d w)).byteAt (a + BitVec.ofNat 24 (k + j)) := by
        rw [State.store_of_backed hd hm, BitVec.add_assoc, ← BitVec.ofNat_add]
        rfl
    _ = s.cell (d.toNat + k + j) := by
        rw [State.byteAt_memWrite_reg hn (by omega), Nat.add_assoc]

end

/-- Settles O26. -/
theorem loadReadsBackedMemory : Obligations.LoadReadsBackedMemory :=
  ⟨fun _ d a hd hm => writesView_load hd hm (codeLength_code (.load1 d a)),
    fun _ d a hd hm => writesView_load hd hm (codeLength_code (.load2 d a)),
    fun _ d a hd hm => writesView_load hd hm (codeLength_code (.load3 d a))⟩

/-- Settles O27. -/
theorem storeWritesBackedMemory : Obligations.StoreWritesBackedMemory :=
  ⟨fun _ d a hd hm => storesView_store (by norm_num) hd hm (codeLength_code (.store1 d a)),
    fun _ d a hd hm => storesView_store (by norm_num) hd hm (codeLength_code (.store2 d a)),
    fun _ d a hd hm => storesView_store (by norm_num) hd hm (codeLength_code (.store3 d a))⟩

/-- Settles O11: each clause is R208 for its two widths. -/
theorem storeThenNarrowLoadSeesItsBytes : Obligations.StoreThenNarrowLoadSeesItsBytes :=
  ⟨fun _ _ _ _ _ hd he hm hk => ⟨_, _, rfl, rfl, State.cell_load_store (j := 0) (by norm_num) hd he hm hk one_pos⟩,
    fun _ _ _ _ _ hd he hm hk => ⟨_, _, rfl, rfl, State.cell_load_store (j := 0) (by norm_num) hd he hm hk one_pos⟩,
    fun _ _ _ _ _ hd he hm hk => ⟨_, _, rfl, rfl, State.cell_load_store (j := 0) (by norm_num) hd he hm hk one_pos⟩,
    fun _ _ _ _ _ hd he hm hk => ⟨_, _, rfl, rfl,
      State.cell_load_store (j := 0) (by norm_num) hd he hm (Nat.succ_le_succ hk) two_pos,
      State.cell_load_store (j := 1) (by norm_num) hd he hm (Nat.succ_le_succ hk) one_lt_two⟩⟩

end Sys2Proof.Machine
end

section
/-! The jumps one by one (45_jumps R651 to R655). -/

namespace Sys2Proof.Machine

/-- A jump on a clear flag falls through when the flag is set (R650). -/
theorem jumpsTo_jumpIf_not {s : State} {c : Code} {flag : Bool} {a : U24} (hl : codeLength c = 5) :
    JumpsTo (.next (s.jumpIf c (!flag) a)) s (if flag = true then s.pc + 5#24 else a) := by
  rw [← ite_not]
  exact jumpsTo_jumpIf hl (by rw [Bool.not_eq_true', Bool.not_eq_true])

/-- Settles O29: JMP is the jump whose condition always holds. -/
theorem jmpGoesToItsTarget : Obligations.JmpGoesToItsTarget := fun _ a =>
  jumpsTo_jumpIf (P := True) (codeLength_code (.jmp a)) (iff_of_true rfl trivial)

/-- Settles O30. -/
theorem zeroJumpsTestZero : Obligations.ZeroJumpsTestZero := fun _ a =>
  ⟨jumpsTo_jumpIf (codeLength_code (.jz a)) Iff.rfl, jumpsTo_jumpIf_not (codeLength_code (.jnz a))⟩

/-- Settles O31. -/
theorem carryJumpsTestCarry : Obligations.CarryJumpsTestCarry := fun _ a =>
  ⟨jumpsTo_jumpIf (codeLength_code (.jc a)) Iff.rfl, jumpsTo_jumpIf_not (codeLength_code (.jnc a))⟩

end Sys2Proof.Machine
end

section
/-! Pushes and pops on backed memory (46_call_stack R700 to R711). -/

namespace Sys2Proof.Machine

section
variable {s : State} {c : Code} {n : Nat} {r : Reg} {v : Val n} {npc : U24}

theorem pushes_pushThen (hn : n ≤ 2 ^ 24) (hm : s.inMem (s.sp - BitVec.ofNat 24 n) n = true) :
    Pushes (.next (s.pushThen c n v npc)) s n v npc := by
  have haddr : s.pushAddr n = s.sp - BitVec.ofNat 24 n := sub24_eq ..
  rw [State.pushThen, haddr, State.checkAccess_of_ok hm]
  exact ⟨_, rfl, rfl, State.memRead_memWrite hn, fun _ _ => rfl, ⟨rfl, rfl⟩,
    fun _ hb => State.byteAt_memWrite_outside hb, retires_complete _ rfl rfl rfl rfl⟩

/-- PUSH.w pushes its view and goes to the next instruction (R704). -/
theorem pushes_push (hn : n ≤ 2 ^ 24) (hr : viewOk n r = true) (hm : s.inMem (s.sp - BitVec.ofNat 24 n) n = true)
    (hl : codeLength c = 3) : Pushes (.next (s.push c n r)) s n (s.reg r n) (s.pc + 3#24) := by
  rw [State.push, State.checkViews_of_ok (by simp [hr]), State.nextPc_of_length hl]
  exact pushes_pushThen hn hm

theorem popsView_pop (hr : viewOk n r = true) (hm : s.inMem s.sp n = true) (hl : codeLength c = 3) :
    PopsView (.next (s.pop c n r)) s n r := by
  rw [State.pop, State.checkViews_of_ok (by simp [hr]), State.checkAccess_of_ok hm]
  exact ⟨_, rfl, State.reg_setReg hr, add24_eq .., fun _ _ hk => State.cell_setReg_outside hk, ⟨rfl, rfl⟩,
    fun _ => rfl, retires_nextPc hl rfl rfl rfl rfl⟩

theorem State.ret_of_backed (hm : s.inMem s.sp 3 = true) :
    s.ret c = ({ s with sp := s.popSp 3 } : State).complete (s.memRead s.sp 3) :=
  State.checkAccess_of_ok hm

end

/-- Settles O33: JSR pushes the address of the next instruction, 5 bytes on. -/
theorem jsrPushesTheReturnAddress : Obligations.JsrPushesTheReturnAddress := fun s a hm => by
  have hnext : s.nextPc (Instr.jsr a).code = s.pc + 5#24 := State.nextPc_of_length (codeLength_code (.jsr a))
  rw [← hnext]
  exact pushes_pushThen (by norm_num) hm

/-- Settles O34. -/
theorem rtsPopsTheReturnAddress : Obligations.RtsPopsTheReturnAddress := fun _ hm =>
  ⟨_, congrArg Host.Outcome.next (State.ret_of_backed hm), add24_eq .., fun _ _ => rfl, ⟨rfl, rfl⟩, fun _ => rfl,
    retires_complete _ rfl rfl rfl rfl⟩

/-- Settles O35. -/
theorem pushLowersSpThenWrites : Obligations.PushLowersSpThenWrites :=
  ⟨fun _ r hr hm => pushes_push (by norm_num) hr hm (codeLength_code (.push1 r)),
    fun _ r hr hm => pushes_push (by norm_num) hr hm (codeLength_code (.push2 r)),
    fun _ r hr hm => pushes_push (by norm_num) hr hm (codeLength_code (.push3 r))⟩

/-- Settles O36. -/
theorem popReadsThenRaisesSp : Obligations.PopReadsThenRaisesSp :=
  ⟨fun _ r hr hm => popsView_pop hr hm (codeLength_code (.pop1 r)),
    fun _ r hr hm => popsView_pop hr hm (codeLength_code (.pop2 r)),
    fun _ r hr hm => popsView_pop hr hm (codeLength_code (.pop3 r))⟩

end Sys2Proof.Machine
end
